-- ==== Sys2Proof/Word.lean ====
section
/-!
DEFINITION. The fixed-size words, names and tables of the ZP-896 (spec/00_scope.md, Handles and names; Samples, rates
and positions).
-/

namespace Sys2Proof

/-- One byte of host memory, clip memory or the serial flash. -/
abbrev Byte := BitVec 8

/-- A bench lane, L0 to L3; L0 is the supervising lane. -/
abbrev Lane := Fin 4

/-- A receiver port, P0 to P7. -/
abbrev Port := Fin 8

/-- A trigger input, T0 to T7. -/
abbrev Trigger := Fin 8

/-- A cue output, Q0 to Q3. -/
abbrev CueLine := Fin 4

/-- An entry of the emitter table (R1). -/
abbrev EntryNo := Fin 96

/-- A slot of the clip catalog (R130). -/
abbrev ClipNo := Fin 256

/-- A slot of the fade profile table (R36). -/
abbrev FadeNo := Fin 16

/-- A stream slot (R67). -/
abbrev SlotNo := Fin 48

/-- A generation, 1 to 255 (spec/00_scope.md, Handles and names). -/
abbrev Generation := BitVec 8

/-- One complex baseband value: a 16-bit in-phase part and a 16-bit quadrature part, both two's complement
(spec/00_scope.md, Samples, rates and positions; R137). -/
structure Sample where
  i : BitVec 16
  q : BitVec 16
  deriving DecidableEq, Repr

/-- The zero sample that R32, R80 and R87 play. -/
def Sample.zero : Sample := ⟨0, 0⟩

/-- A complex value in the making: both parts exact integers, before they are narrowed (R33, R151). -/
structure IqValue where
  i : Int
  q : Int
  deriving DecidableEq, Repr

/-- A table of exactly `n` records, each attached to its number (R1, R36, R67, R130, R147). -/
structure Table (α : Type) (n : Nat) where
  cells : List α
  size : cells.length = n
  deriving DecidableEq, Repr

/-- The record at number `i`. -/
def Table.get {α : Type} {n : Nat} (t : Table α n) (i : Fin n) : α :=
  t.cells[i.val]'(by rw [t.size]; exact i.isLt)

/-- The table with the record at number `i` replaced. -/
def Table.set {α : Type} {n : Nat} (t : Table α n) (i : Fin n) (a : α) : Table α n :=
  ⟨t.cells.set i.val a, by rw [List.length_set, t.size]⟩

/-- The table with every record changed by `f`. -/
def Table.map {α β : Type} {n : Nat} (t : Table α n) (f : α → β) : Table β n :=
  ⟨t.cells.map f, by rw [List.length_map, t.size]⟩

/-- The table that holds `a` at every number. -/
def Table.fill {α : Type} (n : Nat) (a : α) : Table α n :=
  ⟨List.replicate n a, List.length_replicate⟩

end Sys2Proof
end

