-- ==== Sys2Proof/Syntax.lean ====
section
/-!
DEFINITION. The commands of the ZP-896: one constructor of Instr for each row of spec/opcode_table.json, with the row's
operands, and the fields of the requests that bench lanes send (9.9 and the rule of each kind). A field whose encoding
9.9 fixes keeps that encoding here, so that the checks of R168 are made on it; the spec gives no order of the fields in a
request area, so an area arrives split into its fields (notes/assumptions/8.md).
-/

namespace Sys2Proof

/-- An emitter, clip or fade handle as it stands in a request: byte 0 the generation, byte 1 the slot (9.9). -/
structure RawHandle where
  gen : BitVec 8
  slot : BitVec 8
  deriving DecidableEq, Repr

/-- The handle of an emitter record (R7), written E12/3 for slot 12 and generation 3. -/
structure EmitterHandle where
  slot : EntryNo
  gen : Generation
  deriving DecidableEq, Repr

/-- The handle of a clip record (R131). -/
structure ClipHandle where
  slot : ClipNo
  gen : Generation
  deriving DecidableEq, Repr

/-- The handle of a fade profile (R36). -/
structure FadeHandle where
  slot : FadeNo
  gen : Generation
  deriving DecidableEq, Repr

/-! ## Fields of requests -/

/-- A start point (9.9): kind 0 absent, 1 NOW, 2 AT, 3 ON; then the time, the trigger number, or zero. -/
structure StartField where
  kind : BitVec 8
  value : BitVec 64
  deriving DecidableEq, Repr

/-- A stop point (9.9): kind 0 absent, 1 present, 2 REMOVE; then the time. -/
structure StopField where
  kind : BitVec 8
  time : BitVec 64
  deriving DecidableEq, Repr

/-- A cue (9.9): kind 0 absent, 1 present, 2 REMOVE; then the cue sample and the cue line. -/
structure CueField where
  kind : BitVec 8
  sample : BitVec 32
  line : BitVec 8
  deriving DecidableEq, Repr

/-- A path record of a request, in the layout of 9.9. -/
structure PathField where
  delay : BitVec 16
  weight : BitVec 16
  phase : BitVec 16
  fadeIndex : BitVec 8
  fadePresent : BitVec 8
  doppler : BitVec 32
  fade : RawHandle
  spare : BitVec 16
  deriving DecidableEq, Repr

/-- The loop field of CREATE and MODIFY (R13, R93); `unknown` is a kind that the part does not know. -/
inductive LoopField where
  | once
  | loop (start stop : BitVec 32)
  | unknown
  deriving DecidableEq, Repr

/-- The apply point of a MODIFY (R93); `unknown` is a kind that the part does not know. -/
inductive ApplyField where
  | now
  | nextFrame
  | at (time : BitVec 64)
  | on (trigger : BitVec 8)
  | unknown
  deriving DecidableEq, Repr

/-- The mode of a fade profile in a DEFINE_FADE (R36); `unknown` is a kind that the part does not know. -/
inductive FadeModeField where
  | once
  | cycle
  | unknown
  deriving DecidableEq, Repr

/-- The clock source of a CONFIGURE_PORT (R159); `unknown` is a kind that the part does not know. -/
inductive ClockField where
  | synth (divider : Nat)
  | follow (leader : BitVec 8)
  | external (rate : Nat)
  | unknown
  deriving DecidableEq, Repr

/-- The active edge of a trigger setting (R183); `unknown` is a kind that the part does not know. -/
inductive EdgeField where
  | rising
  | falling
  | unknown
  deriving DecidableEq, Repr

/-- CREATE (R13); LATE_OK is a flag of the block. The priority, to which 9.9 gives no encoding and no width, is a natural number,
so that every value above 7 can be sent and is refused (DESIGN CHOICE, notes/assumptions/8.md). -/
structure CreateReq where
  clip : RawHandle
  priority : Nat
  startOffset : BitVec 32
  loop : LoopField
  carrier : BitVec 32
  ports : BitVec 8
  paths : List PathField
  start : StartField
  stop : StopField
  cue : CueField
  deriving DecidableEq, Repr

/-- START (R48); LATE_OK is a flag of the block. -/
structure StartReq where
  emitter : RawHandle
  start : StartField
  deriving DecidableEq, Repr

/-- MODIFY (R93): a field that is `none`, or of kind 0, is not carried. `unmodifiable` says that the request carries a
clip, a priority, a start offset, a start point or a lane. -/
structure ModifyReq where
  emitter : RawHandle
  apply : ApplyField
  paths : Option (List PathField)
  carrier : Option (BitVec 32)
  ports : Option (BitVec 8)
  loop : Option LoopField
  stop : StopField
  cue : CueField
  unmodifiable : Bool
  deriving DecidableEq, Repr

/-- RETIRE (R111), with its ramp in milliseconds. -/
structure RetireReq where
  emitter : RawHandle
  ramp : Nat
  deriving DecidableEq, Repr

/-- DEFINE_FADE (R39, R40): without a profile handle it defines, with one it replaces. -/
structure DefineFadeReq where
  profile : Option RawHandle
  points : List Nat
  step : Nat
  mode : FadeModeField
  deriving DecidableEq, Repr

/-- DEFINE_CLIP (R133). -/
structure DefineClipReq where
  basePage : Nat
  pageCount : Nat
  length : BitVec 32
  rate : BitVec 32
  crc : BitVec 32
  deriving DecidableEq, Repr

/-- LOAD_CLIP (R135). -/
structure LoadClipReq where
  clip : RawHandle
  source : BitVec 64
  check : Bool
  deriving DecidableEq, Repr

/-- CONFIGURE_PORT (R159). -/
structure ConfigurePortReq where
  port : BitVec 8
  clock : ClockField
  owner : BitVec 8
  budget : Nat
  deriving DecidableEq, Repr

/-- SET_OUTPUT (R154). -/
structure SetOutputReq where
  port : BitVec 8
  scene : Bool
  tone : Bool
  divider : Nat
  deriving DecidableEq, Repr

/-- The record classes that SCAN visits, in this order (R182). -/
inductive ScanClass where
  | emitters
  | clips
  | ports
  | triggers
  deriving DecidableEq, Repr

/-- The starting point of a SCAN (R182); a class of `none` is none of the four. -/
structure ScanStart where
  cls : Option ScanClass
  slot : Nat
  deriving DecidableEq, Repr

/-- One trigger setting of a SET_LANE (R183). -/
structure TriggerField where
  trigger : BitVec 8
  edge : EdgeField
  qualification : Nat
  owner : BitVec 8
  deriving DecidableEq, Repr

/-- SET_LANE (R183): a part that is `none`, or an empty list of trigger settings, is not present. -/
structure SetLaneReq where
  target : BitVec 8
  window : Option (BitVec 64 × BitVec 64)
  interval : Option Nat
  triggers : List TriggerField
  deriving DecidableEq, Repr

/-- A request of one of the 22 kinds of R178, with its fields. -/
inductive Request where
  | nop
  | create (q : CreateReq)
  | start (q : StartReq)
  | modify (q : ModifyReq)
  | pause (emitter : RawHandle)
  | resume (emitter : RawHandle)
  | retire (q : RetireReq)
  | queryEmitter (emitter : RawHandle)
  | defineClip (q : DefineClipReq)
  | loadClip (q : LoadClipReq)
  | retireClip (clip : RawHandle)
  | queryClip (clip : RawHandle)
  | defineFade (q : DefineFadeReq)
  | retireFade (profile : RawHandle)
  | configurePort (q : ConfigurePortReq)
  | restartPort (port : BitVec 8)
  | setOutput (q : SetOutputReq)
  | queryPort (port : BitVec 8)
  | scan (start : Option ScanStart)
  | flushLane (lane : BitVec 8)
  | setLane (q : SetLaneReq)
  | setTime (time : BitVec 64)
  deriving DecidableEq, Repr

/-- The part of a request block's header that the bench writes (R167, 9.9). -/
structure Header where
  link : BitVec 64
  kind : BitVec 8
  flags : BitVec 8
  reqLen : BitVec 8
  resLen : BitVec 8
  deriving DecidableEq, Repr

/-- What the serial flash gave the profile loader (R188): bytes from the start of the flash, or a read that failed. -/
inductive FlashRead where
  | data (bytes : List Byte)
  | failed
  deriving DecidableEq, Repr

/-- The outcome of a read of clip memory (R85). -/
inductive ReadOutcome where
  | clean
  | corrected
  | uncorrectable
  deriving DecidableEq, Repr

/-- The condition of a head's status message (8.5). -/
inductive StatusCondition where
  | none
  | overdrive
  | lockLost
  deriving DecidableEq, Repr

/-- A command of the part: one constructor for each row of spec/opcode_table.json. A `tag` names the bus or clip memory
transfer that a completion belongs to (notes/assumptions/13.md). -/
inductive Instr where
  | powerOn
  | benchReset
  | sceneFlush
  | windowStart (l : Lane)
  | windowResume (l : Lane)
  | windowAbort (l : Lane)
  | listCommandInvalid (l : Lane) (value : BitVec 32)
  | causeSummaryWrite (l : Lane) (value : BitVec 32)
  | interruptEnableWrite (l : Lane) (value : BitVec 32)
  | sceneTimeReadLow (wide : Bool)
  | sceneTimeReadHigh
  | registerWrite (offset : Nat) (value : BitVec 64)
  | profileReadDone (tag : Nat) (flash : FlashRead)
  | profileReadTimeout
  | fetchHeaderDone (l : Lane) (tag : Nat) (header : Header)
  | fetchRequestDone (l : Lane) (tag : Nat) (area : Option Request)
  | fetchReadFailed (l : Lane) (tag : Nat)
  | resumeLinkReadDone (l : Lane) (tag : Nat) (link : Option (BitVec 64))
  | handOver
  | heldRequestComplete (l : Lane)
  | writeDone (l : Lane) (tag : Nat)
  | writeFailed (l : Lane) (tag : Nat)
  | nop (l : Lane)
  | create (l : Lane) (q : CreateReq) (lateOk : Bool)
  | start (l : Lane) (q : StartReq) (lateOk : Bool)
  | modify (l : Lane) (q : ModifyReq)
  | pause (l : Lane) (emitter : RawHandle)
  | resume (l : Lane) (emitter : RawHandle)
  | retire (l : Lane) (q : RetireReq)
  | queryEmitter (l : Lane) (emitter : RawHandle) (clear : Bool)
  | defineFade (l : Lane) (q : DefineFadeReq)
  | retireFade (l : Lane) (profile : RawHandle)
  | flushLane (l : Lane) (lane : BitVec 8)
  | defineClip (l : Lane) (q : DefineClipReq)
  | loadClip (l : Lane) (q : LoadClipReq)
  | loadCopyEnd (tag : Nat) (failed : Bool)
  | retireClip (l : Lane) (clip : RawHandle)
  | queryClip (l : Lane) (clip : RawHandle) (clear : Bool)
  | configurePort (l : Lane) (q : ConfigurePortReq)
  | restartPort (l : Lane) (port : BitVec 8)
  | setOutput (l : Lane) (q : SetOutputReq)
  | queryPort (l : Lane) (port : BitVec 8) (clear : Bool)
  | scan (l : Lane) (first : Option ScanStart) (clear : Bool)
  | scanClassRead
  | setLane (l : Lane) (q : SetLaneReq)
  | setLanePart
  | setTime (l : Lane) (time : BitVec 64)
  | spentExpiry (h : EmitterHandle)
  | startLeadExpiry (time : BitVec 64)
  | startTimeExpiry (h : EmitterHandle)
  | stopPointExpiry (h : EmitterHandle) (time : BitVec 64)
  | atApplyExpiry (h : EmitterHandle) (number : Nat)
  | nextFrameApplyExpiry (h : EmitterHandle) (number : Nat)
  | rampEndExpiry (h : EmitterHandle)
  | fadeReplacementExpiry (h : FadeHandle)
  | outputChangeExpiry (p : Port)
  | triggerLineChange (t : Trigger) (high : Bool)
  | triggerQualified (t : Trigger)
  | triggerEdge (t : Trigger) (time : Int)
  | grant
  | runReadDone (n : SlotNo) (tag : Nat) (outcome : ReadOutcome)
  | primedReport (h : EmitterHandle)
  | slotOutputSample (n : SlotNo)
  | endOfClipReport (h : EmitterHandle)
  | cueCrossing (h : EmitterHandle) (line : CueLine) (time : Int)
  | cuePulseEnd (q : CueLine)
  | demandReadDone (n : SlotNo) (tag : Nat) (outcome : ReadOutcome)
  | recoveredReport (h : EmitterHandle)
  | failureReport (h : EmitterHandle)
  | readCountMessage (c : ClipHandle) (outcome : ReadOutcome)
  | clipReferenceRelease (c : ClipHandle)
  | portJoin (p : Port) (h : EmitterHandle) (weight : Nat)
  | portWeight (p : Port) (h : EmitterHandle) (weight : Nat)
  | portLeave (p : Port) (h : EmitterHandle)
  | reservationClaim (p : Port) (h : EmitterHandle) (join : Bool) (increase : Nat)
  | reservationRelease (p : Port) (h : EmitterHandle)
  | portOutputSample (p : Port)
  | probeAnswer (p : Port) (tag : BitVec 8) (identity : BitVec 32) (maxRate : Nat)
  | setRateAck (p : Port) (tag : BitVec 8)
  | headExchangeTimeout (p : Port)
  | headStatusMessage (p : Port) (ready : Bool) (condition : StatusCondition) (detail : BitVec 16)
  | copyHostReadDone (tag : Nat) (bytes : List Byte)
  deriving DecidableEq, Repr

end Sys2Proof
end

