-- ==== Sys2Proof/Config.lean ====
section
/-!
DEFINITION. What an implementation of the ZP-896 fixes and the manual leaves open: the free values (each an uninterpreted
constant), and the capacities of spec/00_scope.md.
-/

namespace Sys2Proof.Config

/-- FREE VALUE (notes/assumptions/6.md). Which length a run takes, given the tag of its read: R77 gives 1 to 1,024 and
the bounds, and not the length. -/
opaque runChoice : Nat → Nat

/-- FREE VALUE (notes/assumptions/7.md). How many words of 8 bytes the result that a kind defines takes, from the kind of the
request and the number of items of varying number the result carries: 9.9 gives the encodings of the common fields and not
the layout of a result. -/
opaque resultWords : Nat → Nat → Nat

/-- FREE VALUE (notes/assumptions/7.md). How many words of a result reach to the end of what a refusal names (a port, a page,
a count), from the kind of the request and the value of the status code (R179). -/
opaque namedWords : Nat → Nat → Nat

/-- FREE VALUE (notes/assumptions/7.md). How many words one entry of a SCAN result takes, by its class, a drained note's
entry counting as a class of its own (R182). -/
opaque scanEntryWords : Nat → Nat

/-- FREE VALUE (notes/assumptions/42.md). How many bytes of a request area the fields take to which 9.9 gives no encoding,
from the kind of the request and from which of those fields, and how many items of them, it carries (R168). -/
opaque plainBytes : Nat → List Nat → Nat

/-- FREE VALUE (notes/assumptions/43.md). How many of its three writes a completion write that fails has made, from the
number of the transfer (R176). -/
opaque writesMade : Nat → Nat

/-- FREE VALUE (notes/assumptions/9.md). The byte that clip memory holds at an address that no load has written, after
the given number of power-ons: R128 says that the contents are not set by power-on. -/
opaque unsetClipByte : Nat → Nat → BitVec 8

/-- FREE VALUE (notes/assumptions/28.md). The design revision in bits 16 to 31 of the part identity (9.9). -/
opaque designRevision : BitVec 16

/-- The fetch rate budget in S/s (R67). -/
def rateBudget : Nat := 2400000000

/-- The stream window of a slot, in samples (R67). -/
def windowSize : Nat := 8192

/-- The echo line of a slot, in samples (R67). -/
def echoSize : Nat := 8192

/-- The longest run, in samples (R77). -/
def maxRun : Nat := 1024

/-- Samples in a page of clip memory (R128). -/
def pageSamples : Nat := 16384

/-- Records in the path pool (R26). -/
def poolSize : Nat := 320

/-- Scene ticks in a scene frame (R43). -/
def frameTicks : Int := 10000

/-- The start lead in scene ticks (R50). -/
def leadTicks : Int := 20000

/-- The periods of the bench reference in 5 ms (R156, R188). -/
def answerPeriods : Nat := 50000

/-- Ticks by which a cue pulse outlasts its latest crossing (R65). -/
def cueTicks : Int := 100

/-- The end of a saturating 32-bit count (R2, R130). -/
def countMax : Nat := 4294967295

/-- The part's synthesised base clock in S/s (R148). -/
def baseClock : Nat := 80000000

end Sys2Proof.Config
end

