-- ==== Sys2Proof/Machine/State.lean ====
section
/-!
DEFINITION. The state of the ZP-896: every record, queue, counter and pin the spec gives the part, as plain data, and the
state right after reset. INVENTORY.md lists each piece with its rule and its reset value.
-/

namespace Sys2Proof.Machine

/-- No command of the ZP-896 stops the part: every refusal is a status in a block, and every fault the manual names (a
FAULTED unit, a FAULTED emitter, a head in FAULT) is a state in which the part goes on. So there is no constructor. -/
inductive Fault where
  deriving DecidableEq, Repr

/-- Why a command is refused. -/
inductive Refusal where
  /-- Raised by an arm of Dispatch.lean whose command has no meaning yet; safe. -/
  | notModelled (mnemonic : String)
  deriving DecidableEq, Repr

/-! ## Points and settings -/

/-- A start point (R2, 3.3). -/
inductive StartPoint where
  | now
  | at (time : BitVec 64)
  | on (trigger : Trigger)
  deriving DecidableEq, Repr

/-- The loop field of a record (R2). -/
inductive LoopMode where
  | once
  | loop (start stop : Nat)
  deriving DecidableEq, Repr

/-- A cue: the cue sample and the cue line (R2). -/
structure Cue where
  sample : Nat
  line : CueLine
  deriving DecidableEq, Repr

/-- The apply point of a staged change (R94). -/
inductive ApplyPoint where
  | nextFrame
  | at (time : BitVec 64)
  | on (trigger : Trigger)
  deriving DecidableEq, Repr

/-- A new value of a field that a change may also remove (R94). -/
inductive FieldChange (α : Type) where
  | keep
  | set (value : α)
  | remove
  deriving DecidableEq, Repr

/-! ## Paths and staged changes -/

/-- The fade that a path's values carry: the profile and the starting point index (R24). -/
structure FadeRef where
  profile : FadeHandle
  index : Nat
  deriving DecidableEq, Repr

/-- The values of a path record that CREATE and MODIFY supply (R24). -/
structure PathVals where
  delay : Nat
  weight : Nat
  phase : Nat
  doppler : Int
  fade : Option FadeRef
  deriving DecidableEq, Repr

/-- A fade position: a point index and the ticks elapsed in its step (R37). -/
structure FadePos where
  index : Nat
  elapsed : Nat
  deriving DecidableEq, Repr

/-- A bound path record: its values, its fade position (R37) and its rotation accumulator (R34). In SPENT the image keeps
the gain as it stood on entering SPENT (R24): `frozenGain`. -/
structure Path where
  vals : PathVals
  pos : Option FadePos
  acc : BitVec 32
  frozenGain : Option Nat
  deriving DecidableEq, Repr

/-- The new values of a change, for each modifiable field (R93, R94). -/
structure NewValues where
  paths : Option (List PathVals)
  carrier : Option Int
  ports : Option (BitVec 8)
  loop : Option LoopMode
  stop : FieldChange (BitVec 64)
  cue : FieldChange Cue
  deriving DecidableEq, Repr

/-- What a staged change holds at one port (R94, R99). -/
structure PortReservation where
  port : Port
  join : Bool
  increase : Nat
  deriving DecidableEq, Repr

/-- A staged change (R94). -/
structure Change where
  number : Nat
  apply : ApplyPoint
  stagedAt : BitVec 64
  new : NewValues
  pathReservation : Nat
  portReservations : List PortReservation
  deriving DecidableEq, Repr

/-! ## The emitter table -/

/-- The states of an entry that holds a record (R1). An entry without a record is FREE. -/
inductive EmState where
  | staged
  | armed
  | waiting
  | priming
  | onAir
  | paused
  | fading
  | faulted
  | spent
  deriving DecidableEq, Repr

/-- The playout quality of a record (R2). -/
inductive Condition where
  | clean
  | recovered
  | muted
  deriving DecidableEq, Repr

/-- How a record came to be SPENT (R118). -/
inductive SpentCause where
  | retired
  | endOfClip
  | stopPoint
  | faultRetired
  deriving DecidableEq, Repr

/-- The spent record (R6). -/
structure SpentRecord where
  cause : SpentCause
  finalPosition : Nat
  deriving DecidableEq, Repr

/-- The set of attention causes of an emitter record (R2). -/
structure EmCauses where
  spentUnrequested : Bool := false
  fault : Bool := false
  superseded : Bool := false
  lateStart : Bool := false
  recovered : Bool := false
  deriving DecidableEq, Repr

/-- A retirement ramp (R113), in scene ticks. -/
structure Ramp where
  length : Int
  stop : Int
  deriving DecidableEq, Repr

/-- An emitter record: the fields of R2, then the ones that are not part of the image. -/
structure Record where
  lane : Lane
  state : EmState
  clip : ClipHandle
  priority : Nat
  startOffset : Nat
  loop : LoopMode
  carrier : Int
  ports : BitVec 8
  paths : List Path
  startPoint : Option StartPoint
  stopPoint : Option (BitVec 64)
  cue : Option Cue
  staged : Option Change
  playPosition : Nat
  passCount : Nat
  cueCount : Nat
  lateAmount : Nat
  condition : Condition
  gapSamples : Nat
  supersededCount : Nat
  passedOver : Nat
  attention : Bool
  causes : EmCauses
  spent : Option SpentRecord
  /-- The change counter (R94). -/
  changeCounter : Nat
  /-- The advance count (R32). -/
  advance : Nat
  /-- The start reference (R49 to R53). -/
  startRef : Option Int
  /-- The start-time mark (R74, R75). -/
  startMark : Bool
  /-- The primed report of an AT start has been taken and noted (R74). -/
  primedNoted : Bool
  /-- An AT start was taken as NOW under LATE_OK (R52). -/
  takenLate : Bool
  /-- The ramp of a FADING record (R113). -/
  ramp : Option Ramp
  deriving DecidableEq, Repr

/-- An entry of the emitter table (R1, R7): FREE when `record` is none. -/
structure Entry where
  gen : Generation
  unused : Bool
  record : Option Record
  deriving DecidableEq, Repr

/-! ## The fade profile table -/

/-- The mode of a fade profile (R36). -/
inductive FadeMode where
  | once
  | cycle
  deriving DecidableEq, Repr

/-- The values that DEFINE_FADE gives a profile (R36). -/
structure FadeCurve where
  points : List Nat
  step : Nat
  mode : FadeMode
  deriving DecidableEq, Repr

/-- A DEFINED fade profile (R36); its use count is a view (R38). -/
structure FadeProfile where
  lane : Lane
  curve : FadeCurve
  replacement : Option FadeCurve
  deriving DecidableEq, Repr

/-- A slot of the fade profile table (R36): EMPTY when `profile` is none. -/
structure FadeSlot where
  gen : Generation
  unused : Bool
  profile : Option FadeProfile
  deriving DecidableEq, Repr

/-! ## The scene timer, triggers and cue lines -/

/-- A kind of pending expiry with the record it names (R44). -/
inductive Expiry where
  | startLead (h : EmitterHandle) (time : BitVec 64)
  | startTime (h : EmitterHandle)
  | stopPoint (h : EmitterHandle) (time : BitVec 64)
  | atApply (h : EmitterHandle) (number : Nat)
  | nextFrameApply (h : EmitterHandle) (number : Nat)
  | rampEnd (h : EmitterHandle)
  | spent (h : EmitterHandle)
  | fadeReplacement (h : FadeHandle)
  | outputChange (p : Port)
  deriving DecidableEq, Repr

/-- A pending expiry and the scene time at which it falls due (R44). -/
structure PendingExpiry where
  kind : Expiry
  due : Int
  deriving DecidableEq, Repr

/-- The active edge of a trigger (R57). -/
inductive Edge where
  | rising
  | falling
  deriving DecidableEq, Repr

/-- The note of unclaimed edges (R57, R63). -/
structure UnclaimedNote where
  latest : Int
  count : Nat
  deriving DecidableEq, Repr

/-- A trigger's record (R57), with the level of its line; a level is true for HIGH. -/
structure TriggerRec where
  edge : Edge
  qualification : Nat
  owner : Lane
  line : Bool
  settled : Bool
  candidate : Option Int
  armList : List EmitterHandle
  applyList : List EmitterHandle
  note : Option UnclaimedNote
  deriving DecidableEq, Repr

/-- A cue line: IDLE (low), or PULSING (high) until an end time (R65). -/
inductive CueState where
  | idle
  | pulsing (stop : Int)
  deriving DecidableEq, Repr

/-! ## Stream slots -/

/-- The fetch state of a slot (R67). -/
inductive FetchState where
  | running
  | stalled
  | demand
  deriving DecidableEq, Repr

/-- A run of clip samples (R77). -/
structure Run where
  start : Nat
  len : Nat
  deriving DecidableEq, Repr

/-- A read of clip memory in flight: the run, the owner's handle as its tag, the clip it reads, whether it is a demand
read, and the number of the transfer (R67, R85, R87). -/
structure Fetch where
  tag : Nat
  owner : EmitterHandle
  clip : ClipHandle
  run : Run
  demand : Bool
  /-- The run lies in a part of the window that the apply of a change has discarded: it stays in flight, and is disregarded
  when it arrives (R77, R82; notes/assumptions/18.md). -/
  discarded : Bool
  deriving DecidableEq, Repr

/-- One unplayed sample of a window with its position in the clip (R67). -/
structure WindowSample where
  pos : Nat
  sample : Sample
  deriving DecidableEq, Repr

/-- A stream slot (R67). The echo line is written newest first; a sample beyond the end of the list is zero (R73). -/
structure StreamSlot where
  owner : Option EmitterHandle
  rate : Nat
  fetchState : FetchState
  window : List WindowSample
  nextPos : Nat
  fetch : Option Fetch
  failed : Option Run
  echo : List Sample
  primed : Bool
  tail : Option Nat
  /-- The end of the clip has been found (R80). -/
  endFound : Bool
  /-- The tail mark, and whether the end had been found, that a change to LOOP applied during the tail has set aside; it
  stands until the next clip sample is played (R82; notes/assumptions/41.md). -/
  heldTail : Option (Nat × Bool)
  deriving DecidableEq, Repr

/-- A free slot (R67). The table of R67 gives its window as empty and no next position to fetch: it is 0 (DESIGN CHOICE,
notes/assumptions/47.md). -/
def StreamSlot.free : StreamSlot where
  owner := none
  rate := 0
  fetchState := .running
  window := []
  nextPos := 0
  fetch := none
  failed := none
  echo := []
  primed := false
  tail := none
  endFound := false
  heldTail := none

/-! ## The clip catalog -/

/-- The states of a clip slot that is not EMPTY (R130). -/
inductive ClipState where
  | defined
  | loading
  | ready
  | draining
  deriving DecidableEq, Repr

/-- The set of attention causes of a clip (R132). -/
structure ClipCauses where
  readError : Bool := false
  drained : Bool := false
  deriving DecidableEq, Repr

/-- A clip record (R130); its load field is a view over the load queue and the load engine. -/
structure Clip where
  lane : Lane
  state : ClipState
  basePage : Nat
  pageCount : Nat
  length : Nat
  rate : Nat
  expectedCrc : BitVec 32
  computedCrc : Option (BitVec 32)
  refs : Nat
  corrected : Nat
  uncorrectable : Nat
  attention : Bool
  causes : ClipCauses
  deriving DecidableEq, Repr

/-- A drained note (R132). -/
structure DrainedNote where
  handle : ClipHandle
  lane : Lane
  causes : ClipCauses
  corrected : Nat
  uncorrectable : Nat
  deriving DecidableEq, Repr

/-- A slot of the clip catalog (R130, R131): EMPTY when `clip` is none. -/
structure ClipSlot where
  gen : Generation
  unused : Bool
  clip : Option Clip
  note : Option DrainedNote
  deriving DecidableEq, Repr

/-- An accepted LOAD_CLIP (R136). -/
structure Load where
  clip : ClipHandle
  lane : Lane
  source : BitVec 64
  check : Bool
  deriving DecidableEq, Repr

/-- The current load of a COPYING load engine (R136, R137): the samples copied, the CRC register, and the tag of its host
reads. -/
structure Copy where
  load : Load
  copied : Nat
  crc : BitVec 32
  tag : Nat
  deriving DecidableEq, Repr

/-- Clip memory as its written bytes, addresses strictly rising (R128). A byte that is not listed has not been written
and reads as Config.unsetClipByte. -/
abbrev Memory := List Host.Cell

/-! ## Receiver ports -/

/-- A clock source (R147, R148). -/
inductive Clock where
  | synth (divider : Nat)
  | follow (leader : Port)
  | external (rate : Nat)
  deriving DecidableEq, Repr

/-- An output setting: scene enable, tone enable and tone divider (R147). -/
structure OutputSetting where
  scene : Bool
  tone : Bool
  divider : Nat
  deriving DecidableEq, Repr

/-- The state of a head (R147). -/
inductive HeadState where
  | unfitted
  | ready
  | fault
  deriving DecidableEq, Repr

/-- What the latest PROBE answer said (R147). -/
structure HeadIdentity where
  value : BitVec 32
  maxRate : Nat
  deriving DecidableEq, Repr

/-- The condition of a head fault (R157, R161, R162). -/
inductive FaultCondition where
  | overdrive
  | lockLost
  | headProtocol
  | noResponse
  | rateLimit
  deriving DecidableEq, Repr

/-- The latest head fault (R147). -/
structure HeadDetail where
  condition : FaultCondition
  value : Nat
  time : BitVec 64
  deriving DecidableEq, Repr

/-- The kind of an exchange (R156). -/
inductive ExchangeKind where
  | probe
  | setRate
  deriving DecidableEq, Repr

/-- What began an exchange (R147, R156). -/
inductive ExchangeFor where
  | startUp
  | configure (lane : Lane) (port : Port)
  | restart (lane : Lane)
  deriving DecidableEq, Repr

/-- An exchange in flight (R147, R156). `due` is counted in periods of the bench reference; `faulted` says that a head
fault has been taken since the exchange's PROBE was sent (R163). -/
structure Exchange where
  kind : ExchangeKind
  tag : BitVec 8
  purpose : ExchangeFor
  due : Nat
  beganAt : BitVec 64
  faulted : Bool
  deriving DecidableEq, Repr

/-- One path's part of a hand-over: the sample it selected and the rotation accumulator at that sample (R34, R150). -/
structure HandOver where
  sample : Sample
  acc : BitVec 32
  deriving DecidableEq, Repr

/-- A mixer member of a port, with its latest hand-over (R149, R150). -/
structure Member where
  handle : EmitterHandle
  weight : Nat
  handOver : List HandOver
  deriving DecidableEq, Repr

/-- A reservation at a port (R100). -/
structure Reservation where
  handle : EmitterHandle
  join : Bool
  increase : Nat
  deriving DecidableEq, Repr

/-- The set of attention causes of a port (R158). -/
structure PortCauses where
  portFault : Bool := false
  headLost : Bool := false
  deriving DecidableEq, Repr

/-- A CONFIGURE_PORT in progress at the port it named (R161): the holding lane, the ports told, and those of them whose
head has not answered in time. -/
structure ConfigureJob where
  lane : Lane
  told : List Port
  silent : List Port
  deriving DecidableEq, Repr

/-- A port record (R147); its rate is a view (R148). -/
structure PortRec where
  owner : Lane
  clock : Clock
  budget : Nat
  output : OutputSetting
  pendingOutput : Option OutputSetting
  tonePhase : Nat
  head : HeadState
  identity : Option HeadIdentity
  detail : Option HeadDetail
  faultCount : Nat
  exchange : Option Exchange
  tag : BitVec 8
  members : List Member
  reservations : List Reservation
  attention : Bool
  causes : PortCauses
  job : Option ConfigureJob
  /-- The sample last sent to the head (R152). -/
  pin : IqValue
  deriving DecidableEq, Repr

/-! ## Status codes, results and what the part sends -/

/-- The status codes (R179). -/
inductive Status where
  | done
  | aborted
  | badRequest
  | range
  | staleHandle
  | laneDenied
  | wrongState
  | inUse
  | noEntry
  | poolExhausted
  | portFull
  | headroom
  | clipNotReady
  | rateMismatch
  | delayRange
  | tooLate
  | overlap
  | crcMismatch
  | portBusy
  | portUnfitted
  | headNoResponse
  | linkReadError
  | windowViolation
  deriving DecidableEq, Repr

/-- How a position of a staged path list stands to the present list (R109). -/
inductive StagedPosition where
  | replaces
  | added
  | released
  deriving DecidableEq, Repr

/-- A path in an image: its values, its fade position and its present gain (R24). -/
structure PathImage where
  vals : PathVals
  pos : Option FadePos
  gain : Nat
  deriving DecidableEq, Repr

/-- The image of an emitter record, in the order of R2. -/
structure EmitterImage where
  handle : EmitterHandle
  lane : Lane
  state : EmState
  clip : ClipHandle
  priority : Nat
  startOffset : Nat
  loop : LoopMode
  carrier : Int
  ports : BitVec 8
  paths : List PathImage
  startPoint : Option StartPoint
  stopPoint : Option (BitVec 64)
  cue : Option Cue
  staged : Option Change
  stagedMarks : List StagedPosition
  playPosition : Nat
  passCount : Nat
  cueCount : Nat
  lateAmount : Nat
  condition : Condition
  gapSamples : Nat
  supersededCount : Nat
  passedOver : Nat
  attention : Bool
  causes : EmCauses
  spent : Option SpentRecord
  deriving DecidableEq, Repr

/-- Where a load stands (R130, R136): its place in the load queue, counted from 1, or COPYING. -/
inductive LoadPlace where
  | queued (place : Nat)
  | copying
  deriving DecidableEq, Repr

/-- The load field of a clip's image (R130, R144). -/
structure LoadImage where
  lane : Lane
  check : Bool
  place : LoadPlace
  copied : Nat
  deriving DecidableEq, Repr

/-- The image of a clip, in the order of R130. -/
structure ClipImage where
  handle : ClipHandle
  lane : Lane
  state : ClipState
  basePage : Nat
  pageCount : Nat
  length : Nat
  rate : Nat
  expectedCrc : BitVec 32
  computedCrc : Option (BitVec 32)
  load : Option LoadImage
  refs : Nat
  corrected : Nat
  uncorrectable : Nat
  attention : Bool
  causes : ClipCauses
  deriving DecidableEq, Repr

/-- The output mode of a port (R152). -/
inductive PortMode where
  | headOff
  | retuning
  | tone
  | scene
  | quiet
  deriving DecidableEq, Repr

/-- The image of a port (R165). -/
structure PortImage where
  owner : Lane
  clock : Clock
  rate : Nat
  budget : Nat
  output : OutputSetting
  pendingOutput : Option OutputSetting
  pendingAt : Option Int
  mode : PortMode
  head : HeadState
  identity : Option HeadIdentity
  detail : Option HeadDetail
  faultCount : Nat
  exchange : Option (ExchangeKind × BitVec 64)
  members : List (EmitterHandle × Nat)
  reservations : List Reservation
  reservedJoins : Nat
  committed : Nat
  freeRoom : Int
  attention : Bool
  causes : PortCauses
  deriving DecidableEq, Repr

/-- One entry of a SCAN result (R182). -/
inductive ScanEntry where
  | emitter (h : EmitterHandle) (state : EmState) (causes : EmCauses)
  | clip (h : ClipHandle) (state : ClipState) (causes : ClipCauses)
  | note (n : DrainedNote)
  | port (p : Port) (head : HeadState) (causes : PortCauses)
  | trigger (t : Trigger) (latest : Int) (count : Nat)
  deriving DecidableEq, Repr

/-- The continuation word of a SCAN result (R182). -/
inductive Continuation where
  | doneAll
  | from (cls : ScanClass) (slot : Nat)
  deriving DecidableEq, Repr

/-- The indications of R179. -/
inductive Indication where
  | applied
  | staged
  | immediate
  | pending
  | deferred
  deriving DecidableEq, Repr

/-- What a result carries, as the rule of each kind gives it. -/
inductive Result where
  /-- Nothing beyond the status; the words of a refusal are 0 (R179). -/
  | empty
  /-- CREATE (R17): the new handle and, after a reclaim, the reclaimed one. -/
  | created (h : EmitterHandle) (reclaimed : Option EmitterHandle)
  /-- A port that a refusal or a HEAD_NO_RESPONSE names (R13, R95, R159, R161). -/
  | port (p : Port)
  /-- POOL_EXHAUSTED (R26): the free count and the records needed. -/
  | pool (free needed : Nat)
  /-- START (R48): the state in which the record stands. -/
  | started (state : EmState)
  /-- MODIFY (R98): the change number, the indication, and the superseded change's number. -/
  | modified (number : Nat) (indication : Indication) (superseded : Option Nat)
  /-- PAUSE and RESUME (R83, R84): the play position. -/
  | position (pos : Nat)
  /-- RETIRE to SPENT (R111). -/
  | spent (cause : SpentCause) (pos : Nat)
  /-- RETIRE to FADING (R111): the ramp end. -/
  | fading (rampEnd : Int)
  | emitterImage (img : EmitterImage)
  /-- DEFINE_FADE (R39, R40): handle, indication and use count. -/
  | fade (h : FadeHandle) (indication : Indication) (uses : Nat)
  /-- RETIRE_FADE (R41): the use count. -/
  | uses (n : Nat)
  /-- FLUSH_LANE (R123): the entries taken to FREE. -/
  | flushed (n : Nat)
  /-- DEFINE_CLIP (R133): the new handle. -/
  | clip (h : ClipHandle)
  /-- OVERLAP (R133): the lowest covered page. -/
  | page (n : Nat)
  /-- LOAD_CLIP (R138): the computed CRC. -/
  | crc (computed : BitVec 32)
  /-- CRC_MISMATCH (R138): the computed and the expected CRC. -/
  | crcs (computed expected : BitVec 32)
  /-- LINK_READ_ERROR, or an ABORTED LOAD_CLIP (R138, R141, R172): the samples copied. -/
  | copied (n : Nat)
  /-- RETIRE_CLIP (R141): the indication and the reference count. -/
  | clipRetired (indication : Indication) (refs : Nat)
  | clipImage (img : ClipImage)
  /-- CONFIGURE_PORT (R161): the head state of the port and of each follower told. -/
  | heads (states : List (Port × HeadState))
  /-- HEAD_NO_RESPONSE of a CONFIGURE_PORT (R161): the lowest silent port, and the head states. -/
  | silent (p : Port) (states : List (Port × HeadState))
  /-- RESTART_PORT (R162, R163): the head state and the head identity. -/
  | head (state : HeadState) (identity : Option HeadIdentity)
  /-- RESTART_PORT acknowledged after a head fault (R163): the head state. -/
  | headState (state : HeadState)
  /-- SET_OUTPUT (R154): PENDING, and the frame boundary. -/
  | output (indication : Indication) (boundary : Int)
  | portImage (img : PortImage)
  | scan (entries : List ScanEntry) (next : Continuation)
  /-- IN_USE of a SET_TIME (R46): time arm set, start-time expiries, AT apply points, stop points. -/
  | absolute (arm startTimes applies stops : Nat)
  /-- SET_TIME (R46): the count before and the value written. -/
  | time (before after : BitVec 64)
  deriving DecidableEq, Repr

/-- The answer to a block: its status and its result (R174). -/
structure Answer where
  status : Status
  result : Result
  deriving DecidableEq, Repr

/-- What the part sends to the outside (notes/assumptions/31.md). -/
inductive Sent where
  /-- Result words are written, from the given address, the first so many words of a result (R167, step 1). -/
  | resultWrite (l : Lane) (addr : BitVec 64) (result : Result) (words : Nat)
  /-- The status code and the number of result words are written at an address (R167, step 2). -/
  | statusWrite (l : Lane) (addr : BitVec 64) (status : Status) (words : Nat)
  /-- The completion byte is written at an address, COMPLETE with or without TRUNCATED (R167, step 3). -/
  | completionWrite (l : Lane) (addr : BitVec 64) (truncated : Bool)
  /-- The load engine issues a host read at an address, of at most so many bytes (R137; notes/assumptions/44.md). -/
  | hostRead (tag : Nat) (addr : BitVec 64) (bytes : Nat)
  /-- A lane's interrupt message (R181). -/
  | interrupt (l : Lane)
  /-- A PROBE command to a head (8.5). -/
  | probe (p : Port) (tag : BitVec 8)
  /-- A SET_RATE command to a head (8.5). -/
  | setRate (p : Port) (tag : BitVec 8) (rate : Nat) (external : Bool)
  /-- The value a window read returns (R186). -/
  | windowRead (value : BitVec 64)
  deriving DecidableEq, Repr

/-! ## Request units -/

/-- The fault detail of a unit (R169). -/
inductive UnitFault where
  | linkRead
  | linkWrite
  | window
  | alignment
  deriving DecidableEq, Repr

/-- The phase of an ACTIVE unit (R169). The first three are FETCHING: the header read, the request area read (R173), and
the link re-read of RESUME (R171). -/
inductive Phase where
  | fetchHeader
  | fetchRequest
  | readLink
  | waitingTurn
  | handed
  | held
  | writing
  deriving DecidableEq, Repr

/-- The state of a request unit (R169). -/
inductive UnitState where
  | idle
  | active (phase : Phase)
  | suspended
  | faulted (detail : UnitFault)
  deriving DecidableEq, Repr

/-- A fetched block (R169): its header and, once read, its request area. An area of `none` has not been read, or is
shorter than the fields the kind needs (R168). -/
structure Block where
  header : Header
  area : Option Request
  deriving DecidableEq, Repr

/-- A completion write in flight (R167, R176): the number of the transfer, the lane, the address of the block, where its result
area begins, the answer, the result words to be written, and TRUNCATED. -/
structure HostWrite where
  tag : Nat
  lane : Lane
  block : BitVec 64
  resultArea : BitVec 64
  answer : Answer
  words : Nat
  truncated : Bool
  deriving DecidableEq, Repr

/-- A host window, the limit included (R177). -/
structure HostWindow where
  base : BitVec 64
  limit : BitVec 64
  deriving DecidableEq, Repr

/-- The unrestricted window (R177). -/
def HostWindow.unrestricted : HostWindow := ⟨0, BitVec.allOnes 64⟩

/-- A request unit with its lane's cause summary, interrupt enable and host window (R169, R177, R180, R181). -/
structure RequestUnit where
  state : UnitState
  listBase : BitVec 64
  current : BitVec 64
  block : Option Block
  answer : Option Answer
  /-- The number of the bus transfer in flight (notes/assumptions/13.md). -/
  tag : Nat
  summary : BitVec 9
  enable : BitVec 9
  /-- None for L0, whose addresses are not checked (R177). -/
  window : Option HostWindow
  deriving DecidableEq, Repr

/-! ## Requests carried through several owners -/

/-- A SCAN in progress (R182): the class and the slot to be read next, the entries written, the words they take, and the
words of the result area. -/
structure ScanWalk where
  lane : Lane
  clear : Bool
  cls : ScanClass
  slot : Nat
  entries : List ScanEntry
  used : Nat
  room : Nat
  deriving DecidableEq, Repr

/-- A trigger setting that has passed the checks of SET_LANE (R183). -/
structure TriggerSetting where
  trigger : Trigger
  edge : Edge
  qualification : Nat
  owner : Lane
  deriving DecidableEq, Repr

/-- One part of a SET_LANE that an owner still has to take (R183). -/
inductive LanePart where
  | window (target : Lane) (w : HostWindow)
  | interval (target : Lane) (ms : Nat)
  | triggers (settings : List TriggerSetting)
  deriving DecidableEq, Repr

/-- The SCAN or SET_LANE that is between two of its owners (R174). -/
inductive Walk where
  | scan (w : ScanWalk)
  | setLane (lane : Lane) (parts : List LanePart)
  deriving DecidableEq, Repr

/-! ## Messages on their way -/

/-- A message between blocks, or a raised expiry, that its taker has not taken yet (R10, R44; notes/assumptions/3.md). -/
inductive Message where
  | expiry (e : Expiry)
  | edge (t : Trigger) (time : Int)
  | primed (h : EmitterHandle)
  | endOfClip (h : EmitterHandle)
  | crossing (h : EmitterHandle) (line : CueLine) (time : Int)
  | recovered (h : EmitterHandle)
  | failure (h : EmitterHandle)
  | readCount (c : ClipHandle) (outcome : ReadOutcome)
  /-- An owner's completion of a held request, with the samples a load had copied (R175). -/
  | heldDone (l : Lane) (answer : Answer) (copied : Nat)
  deriving DecidableEq, Repr

/-! ## The part -/

/-- Where start-up stands (R187 to R191). -/
inductive PartPhase where
  /-- STARTING, the read of the profile header in flight since the given period of the bench reference. -/
  | readingProfile (tag : Nat) (issuedAt : Nat)
  /-- STARTING, the read of the block in flight since the given period, for as many bytes as the header's block length. -/
  | readingBlock (tag : Nat) (issuedAt : Nat) (length : Nat)
  /-- STARTING, the heads being probed. -/
  | probing
  | ready
  deriving DecidableEq, Repr

/-- The whole state of the ZP-896 (INVENTORY.md, State). -/
structure State where
  phase : PartPhase
  profileDefaults : Bool
  profilePartial : Bool
  /-- Periods of the bench reference gone by. -/
  refTime : Nat
  sceneTime : BitVec 64
  latch : Option (BitVec 32)
  units : Table RequestUnit 4
  pointer : Lane
  walk : Option Walk
  /-- The completion writes in flight: those of the WRITING units, those whose unit an ABORT has moved away, and the ABORTED
  writes of held requests (R172, R176). -/
  writes : List HostWrite
  spentIntervals : Table Nat 4
  entries : Table Entry 96
  spentList : List EmitterHandle
  armSet : List EmitterHandle
  fades : Table FadeSlot 16
  timer : List PendingExpiry
  inFlight : List Message
  triggers : Table TriggerRec 8
  cues : Table CueState 4
  slots : Table StreamSlot 48
  strayReads : List Fetch
  grantQueue : List EmitterHandle
  clips : Table ClipSlot 256
  loadQueue : List Load
  copy : Option Copy
  clipMem : Memory
  powerOns : Nat
  ports : Table PortRec 8
  nextTag : Nat
  sent : List Sent
  /-- The commands that are waiting, first in, first out. -/
  pending : List Instr
  deriving DecidableEq, Repr

/-- A request unit after power-on (R185): list base and current block 0, summary and enables clear. -/
def RequestUnit.initial (window : Option HostWindow) : RequestUnit where
  state := .idle
  listBase := 0
  current := 0
  block := none
  answer := none
  tag := 0
  summary := 0
  enable := 0
  window := window

/-- The four units after power-on: L0 has no host window, the others the unrestricted one (R177, R188). -/
def initialUnits : Table RequestUnit 4 :=
  (Table.fill 4 (RequestUnit.initial (some .unrestricted))).set 0 (RequestUnit.initial none)

/-- An emitter entry after power-on (R7, R23). -/
def Entry.initial : Entry := ⟨1, true, none⟩

/-- A fade profile slot after power-on (R36, R42). -/
def FadeSlot.initial : FadeSlot := ⟨1, true, none⟩

/-- A clip slot after power-on (R131, R146). -/
def ClipSlot.initial : ClipSlot := ⟨1, true, none, none⟩

/-- A trigger with the defaults of R188, its line at the given level. Before READY the settled level is not watched; it is
kept LOW until then (DESIGN CHOICE, notes/assumptions/14.md). -/
def TriggerRec.initial (line : Bool) : TriggerRec where
  edge := .rising
  qualification := 2
  owner := 0
  line := line
  settled := false
  candidate := none
  armList := []
  applyList := []
  note := none

/-- A port with the defaults of R166 and R188 and the given exchange tag. -/
def PortRec.initial (tag : BitVec 8) : PortRec where
  owner := 0
  clock := .synth 2
  budget := 4096
  output := ⟨false, false, 4⟩
  pendingOutput := none
  tonePhase := 0
  head := .unfitted
  identity := none
  detail := none
  faultCount := 0
  exchange := none
  tag := tag
  members := []
  reservations := []
  attention := false
  causes := ⟨false, false⟩
  job := none
  pin := ⟨0, 0⟩

/-- The part right after power-on (R187): STARTING, with the read of the profile header just issued, every block at the power-on values
of its chapter (R23, R42, R66, R92, R110, R127, R146, R166, R185). -/
def State.reset : State where
  phase := .readingProfile 0 0
  profileDefaults := false
  profilePartial := false
  refTime := 0
  sceneTime := 0
  latch := none
  units := initialUnits
  pointer := 3
  walk := none
  writes := []
  spentIntervals := Table.fill 4 2000
  entries := Table.fill 96 Entry.initial
  spentList := []
  armSet := []
  fades := Table.fill 16 FadeSlot.initial
  timer := []
  inFlight := []
  triggers := Table.fill 8 (TriggerRec.initial false)
  cues := Table.fill 4 .idle
  slots := Table.fill 48 StreamSlot.free
  strayReads := []
  grantQueue := []
  clips := Table.fill 256 ClipSlot.initial
  loadQueue := []
  copy := none
  clipMem := []
  powerOns := 0
  ports := Table.fill 8 (PortRec.initial 0)
  nextTag := 1
  sent := []
  pending := []

end Sys2Proof.Machine
end

