-- ==== Sys2Proof/Machine/Ops.lean ====
section
/-!
DEFINITION. The named operations that every command is written over: the tables' setters, handles and generations, scene
time and the timer, messages and transfers, clip memory and its CRC-32, and the views that the spec derives from the state
(rates, pool counts, use counts, committed weights, output modes).
-/

namespace Sys2Proof.Machine

/-- The outcome of every command of this machine: a next state, a fault or a refusal. -/
abbrev Out := Host.Outcome State Fault Refusal

/-! ## Setters -/

def State.setUnit (s : State) (l : Lane) (u : RequestUnit) : State := { s with units := s.units.set l u }

def State.setEntry (s : State) (i : EntryNo) (e : Entry) : State := { s with entries := s.entries.set i e }

def State.setFade (s : State) (i : FadeNo) (f : FadeSlot) : State := { s with fades := s.fades.set i f }

def State.setTrigger (s : State) (t : Trigger) (r : TriggerRec) : State := { s with triggers := s.triggers.set t r }

def State.setCue (s : State) (q : CueLine) (c : CueState) : State := { s with cues := s.cues.set q c }

def State.setSlot (s : State) (n : SlotNo) (x : StreamSlot) : State := { s with slots := s.slots.set n x }

def State.setClip (s : State) (c : ClipNo) (x : ClipSlot) : State := { s with clips := s.clips.set c x }

def State.setPort (s : State) (p : Port) (r : PortRec) : State := { s with ports := s.ports.set p r }

/-! ## Generations and handles (R7, R36, R131) -/

/-- The generation after `g`: from 255 it continues at 1. -/
def nextGen (g : Generation) : Generation := if g = 255 then 1 else g + 1

/-- The generation that a new record takes: the slot's own while its unused mark is set, and the next one after that. -/
def takeGen (gen : Generation) (unused : Bool) : Generation := if unused then gen else nextGen gen

/-- The record that an accepted emitter handle names: the generation is the entry's and the entry is not FREE (R8). -/
def State.recordAt (s : State) (h : EmitterHandle) : Option Record :=
  let e := s.entries.get h.slot
  if e.gen = h.gen then e.record else none

/-- The clip that an accepted clip handle names (R131). -/
def State.clipAt (s : State) (c : ClipHandle) : Option Clip :=
  let x := s.clips.get c.slot
  if x.gen = c.gen then x.clip else none

/-- The profile that an accepted fade handle names (R36). -/
def State.fadeAt (s : State) (f : FadeHandle) : Option FadeProfile :=
  let x := s.fades.get f.slot
  if x.gen = f.gen then x.profile else none

/-- The entry's record becomes `r`; its generation and unused mark are kept. -/
def State.putRecord (s : State) (i : EntryNo) (r : Record) : State :=
  s.setEntry i { s.entries.get i with record := some r }

/-- The record of an accepted handle is changed by `f`; a handle that is not accepted changes nothing. -/
def State.modifyRecord (s : State) (h : EmitterHandle) (f : Record → Record) : State :=
  match s.recordAt h with
  | some r => s.putRecord h.slot (f r)
  | none => s

/-- The clip slot's record becomes `c`; its generation, mark and note are kept. -/
def State.putClip (s : State) (i : ClipNo) (c : Clip) : State :=
  s.setClip i { s.clips.get i with clip := some c }

/-- A count that stops at its maximum and keeps it (spec/00_scope.md, Numbers). -/
def satSucc (top n : Nat) : Nat := if n < top then n + 1 else n

/-! ## The states of an entry (R1, R11) -/

/-- The live states. -/
def EmState.isLive : EmState → Bool
  | .staged | .armed | .waiting | .priming | .onAir | .paused => true
  | .fading | .faulted | .spent => false

/-- The holding states: STAGED through FAULTED. -/
def EmState.isHolding : EmState → Bool
  | .spent => false
  | .staged | .armed | .waiting | .priming | .onAir | .paused | .fading | .faulted => true

/-- The states in which an entry holds a stream slot (R67). -/
def EmState.holdsSlot : EmState → Bool
  | .priming | .onAir | .paused | .fading => true
  | .staged | .armed | .waiting | .faulted | .spent => false

/-- The states in which an entry sounds (R33). -/
def EmState.sounds : EmState → Bool
  | .onAir | .fading => true
  | .staged | .armed | .waiting | .priming | .paused | .faulted | .spent => false

/-! ## Scene time and the timer (R43, R44) -/

/-- Scene time as an exact integer. -/
def State.now (s : State) : Int := (s.sceneTime.toNat : Int)

/-- A 64-bit scene time as an exact integer. -/
def ticks (t : BitVec 64) : Int := (t.toNat : Int)

/-- The first frame boundary that the count advances onto after `t`. -/
def nextBoundary (t : Int) : Int := (t / Config.frameTicks + 1) * Config.frameTicks

/-- A message is sent, or an expiry raised: it is on its way (notes/assumptions/3.md). -/
def State.post (s : State) (m : Message) : State := { s with inFlight := s.inFlight ++ [m] }

/-- The taking of a message that is on its way; `none` where it is not. -/
def State.take (s : State) (m : Message) : Option State :=
  if m ∈ s.inFlight then some { s with inFlight := s.inFlight.erase m } else none

/-- An expiry is asked of the timer. One requested for a time at or before the count is raised at once (R44). -/
def State.request (s : State) (e : Expiry) (due : Int) : State :=
  if due ≤ s.now then s.post (.expiry e) else { s with timer := s.timer ++ [⟨e, due⟩] }

/-- The timer withdraws the pending expiries that `drop` names (R44). -/
def State.withdraw (s : State) (drop : Expiry → Bool) : State :=
  { s with timer := s.timer.filter fun x => !drop x.kind }

/-- The absolute items (R44). -/
def Expiry.isAbsolute : Expiry → Bool
  | .startLead _ _ | .startTime _ | .stopPoint _ _ | .atApply _ _ => true
  | .nextFrameApply _ _ | .rampEnd _ | .spent _ | .fadeReplacement _ | .outputChange _ => false

/-- The frame-bound expiries (R44). -/
def Expiry.isFrameBound : Expiry → Bool
  | .nextFrameApply _ _ | .fadeReplacement _ | .outputChange _ => true
  | .startLead _ _ | .startTime _ | .stopPoint _ _ | .atApply _ _ | .rampEnd _ | .spent _ => false

/-- The start lead, start-time expiry and stop-point expiry of a record (R117, step 2). -/
def Expiry.isStartOrStopOf (h : EmitterHandle) : Expiry → Bool
  | .startLead k _ | .startTime k | .stopPoint k _ => k == h
  | .atApply _ _ | .nextFrameApply _ _ | .rampEnd _ | .spent _ | .fadeReplacement _ | .outputChange _ => false

/-- The stop-point expiry of a record (R55). -/
def Expiry.isStopOf (h : EmitterHandle) : Expiry → Bool
  | .stopPoint k _ => k == h
  | .startLead _ _ | .startTime _ | .atApply _ _ | .nextFrameApply _ _ | .rampEnd _ | .spent _ | .fadeReplacement _
  | .outputChange _ => false

/-- Whether an expiry is outstanding: pending, or raised and not yet taken (notes/assumptions/15.md). -/
def State.outstanding (s : State) (e : Expiry) : Bool :=
  s.timer.any (fun x => x.kind == e) || s.inFlight.contains (.expiry e)

/-! ## Transfers and what the part sends -/

/-- The transfer number `nextTag` has been given out (notes/assumptions/13.md). -/
def State.bumpTag (s : State) : State := { s with nextTag := s.nextTag + 1 }

/-- The part sends `x` to the outside. -/
def State.send (s : State) (x : Sent) : State := { s with sent := s.sent ++ [x] }

/-! ## Clip memory (R128) -/

/-- The byte at an address; `none` where nothing has written it. -/
def Memory.read : Memory → Nat → Option Byte
  | [], _ => none
  | c :: m, a => if c.1 = a then some c.2 else Memory.read m a

/-- A byte is written; the addresses stay strictly rising. -/
def Memory.write : Memory → Nat → Byte → Memory
  | [], a, b => [(a, b)]
  | c :: m, a, b =>
    if a < c.1 then (a, b) :: c :: m
    else if a = c.1 then (a, b) :: m
    else c :: Memory.write m a b

/-- Bytes are written at consecutive addresses. -/
def Memory.writeBytes : Memory → Nat → List Byte → Memory
  | m, _, [] => m
  | m, a, b :: bs => Memory.writeBytes (m.write a b) (a + 1) bs

/-- The canonical form: addresses strictly rising, and inside the 4 GiB of clip memory. -/
abbrev Memory.wf (m : Memory) : Prop := m.Pairwise (fun c d => c.1 < d.1) ∧ ∀ c ∈ m, c.1 < 2 ^ 32

/-- The address of the first byte of position `p` of a clip with base page `base` (R128): the page, then the sample index in
it, 4 bytes a sample. -/
def sampleAddr (base p : Nat) : Nat := (base + p / Config.pageSamples) * 65536 + (p % Config.pageSamples) * 4

/-- The byte that clip memory gives at an address: the one written, or a free value (notes/assumptions/9.md). -/
def State.clipByte (s : State) (a : Nat) : Byte :=
  match s.clipMem.read a with
  | some b => b
  | none => Config.unsetClipByte s.powerOns a

/-- A sample of four bytes: the in-phase part and then the quadrature part, the less significant byte first (R137). -/
def sampleOfBytes (b0 b1 b2 b3 : Byte) : Sample := ⟨b1 ++ b0, b3 ++ b2⟩

/-- The sample at position `p` of a clip (R128). -/
def State.clipSample (s : State) (c : Clip) (p : Nat) : Sample :=
  let a := sampleAddr c.basePage p
  sampleOfBytes (s.clipByte a) (s.clipByte (a + 1)) (s.clipByte (a + 2)) (s.clipByte (a + 3))

/-! ## CRC-32 (R137) -/

/-- The generator polynomial without its x^32 term. -/
def crcPoly : BitVec 32 := 0x04C11DB7

/-- One bit enters the register. -/
def crcBit (reg : BitVec 32) (bit : Bool) : BitVec 32 :=
  if reg.msb != bit then (reg <<< 1) ^^^ crcPoly else reg <<< 1

/-- One byte enters with its least significant bit first. -/
def crcByte (reg : BitVec 32) (b : Byte) : BitVec 32 :=
  [0, 1, 2, 3, 4, 5, 6, 7].foldl (fun r n => crcBit r (b.getLsbD n)) reg

/-- The register is preset to all ones. -/
def crcInit : BitVec 32 := BitVec.allOnes 32

/-- The bits of a word in reverse order. -/
def reverseBits (x : BitVec 32) : BitVec 32 :=
  (List.range 32).foldl (fun r n => (r <<< 1) ||| (if x.getLsbD n then 1#32 else 0#32)) 0

/-- The final register, taken with its bits in reverse order and inverted. -/
def crcFinal (reg : BitVec 32) : BitVec 32 := ~~~ (reverseBits reg)

/-- The CRC-32 of a list of bytes. -/
def crc32 (bytes : List Byte) : BitVec 32 := crcFinal (bytes.foldl crcByte crcInit)

/-! ## Little-endian words (9.9) -/

/-- The unsigned value of bytes, the less significant first. -/
def leNat : List Byte → Nat
  | [] => 0
  | b :: bs => b.toNat + 256 * leNat bs

/-! ## Port sets, weights and accounts (R100, R148, R149) -/

/-- The ports of a port set, in ascending order (9.9). -/
def portsOf (set : BitVec 8) : List Port := (List.finRange 8).filter fun p => set.getLsbD p.val

/-- An emitter's weight: the sum of its path weights (spec/00_scope.md, Weights and gains). -/
def weightOf (paths : List PathVals) : Nat := (paths.map (·.weight)).sum

/-- The values of a record's path list. -/
def Record.pathVals (r : Record) : List PathVals := r.paths.map (·.vals)

/-- The present weight of a record. -/
def Record.weight (r : Record) : Nat := weightOf r.pathVals

/-- The longest delay of a record's present path list (R80). -/
def Record.longestDelay (r : Record) : Nat := (r.pathVals.map (·.delay)).foldl max 0

/-- Reserved joins of a port (R100). -/
def PortRec.reservedJoins (r : PortRec) : Nat := (r.reservations.filter (·.join)).length

/-- Committed weight of a port: members' weights plus reserved increases (R100). -/
def PortRec.committed (r : PortRec) : Nat :=
  (r.members.map (·.weight)).sum + (r.reservations.map (·.increase)).sum

/-- A port with no member and no reservation (R159, step 6). -/
def PortRec.vacant (r : PortRec) : Bool := r.members.isEmpty && r.reservations.isEmpty

/-- The rate of a clock source that is not FOLLOW (R148). -/
def Clock.ownRate : Clock → Nat
  | .synth d => Config.baseClock / d
  | .external r => r
  | .follow _ => 0

/-- The rate of a clock source, a follower's being its leader's (R148). -/
def State.clockRate (s : State) : Clock → Nat
  | .follow k => (s.ports.get k).clock.ownRate
  | c => c.ownRate

/-- The rate of a port (R148). -/
def State.portRate (s : State) (p : Port) : Nat := s.clockRate (s.ports.get p).clock

/-- Whether a clock source is EXTERNAL. -/
def Clock.isExternal : Clock → Bool
  | .external _ => true
  | .synth _ | .follow _ => false

/-- The clock source kind that a port's SET_RATE carries: a follower's is its leader's (notes/assumptions/26.md). -/
def State.runsExternal (s : State) (p : Port) : Bool :=
  match (s.ports.get p).clock with
  | .follow k => (s.ports.get k).clock.isExternal
  | c => c.isExternal

/-- The followers of a port, in ascending order (R148). -/
def State.followers (s : State) (p : Port) : List Port :=
  (List.finRange 8).filter fun k => (s.ports.get k).clock == .follow p

/-- The output mode of a port: the first row of R152 that holds. -/
def PortRec.mode (r : PortRec) : PortMode :=
  if r.head ≠ .ready then .headOff
  else if r.exchange.isSome then .retuning
  else if r.output.tone then .tone
  else if r.output.scene then .scene
  else .quiet

/-! ## Views over the emitter table: the path pool and the fade uses (R26, R38) -/

/-- The records of the table, in slot order. -/
def State.records (s : State) : List Record := s.entries.cells.filterMap (·.record)

/-- The path records bound to a record: those of its path list while it stands in STAGED through FAULTED (R26). -/
def Record.bound (r : Record) : Nat := if r.state.isHolding then r.paths.length else 0

/-- The path records reserved to a record's staged change (R26). -/
def Record.reserved (r : Record) : Nat :=
  match r.staged with
  | some c => c.pathReservation
  | none => 0

/-- The bound records of the pool. -/
def State.poolBound (s : State) : Nat := (s.records.map (·.bound)).sum

/-- The reserved records of the pool. -/
def State.poolReserved (s : State) : Nat := (s.records.map (·.reserved)).sum

/-- The free records of the pool. -/
def State.poolFree (s : State) : Nat := Config.poolSize - (s.poolBound + s.poolReserved)

/-- Whether path values name a profile (R38). -/
def PathVals.names (v : PathVals) (f : FadeHandle) : Bool :=
  match v.fade with
  | some x => x.profile == f
  | none => false

/-- The path records that name a profile in their present values, in their staged image, or in the values they are
reserved for; a record that names it in both counts once (R38). -/
def usesAmong (f : FadeHandle) : List PathVals → List PathVals → Nat
  | [], vs => vs.countP (·.names f)
  | p :: ps, vs => (if p.names f || vs.head?.any (·.names f) then 1 else 0) + usesAmong f ps vs.tail

/-- The new path list that a record's staged change carries; empty when there is none. -/
def Record.stagedPaths (r : Record) : List PathVals :=
  match r.staged with
  | some c => c.new.paths.getD []
  | none => []

/-- A record's naming of a profile (R38). -/
def Record.fadeUses (r : Record) (f : FadeHandle) : Nat :=
  if r.state.isHolding then usesAmong f r.pathVals r.stagedPaths else 0

/-- The use count of a profile (R38). -/
def State.fadeUses (s : State) (f : FadeHandle) : Nat := (s.records.map (·.fadeUses f)).sum

/-! ## Fade positions and gains (R27, R37) -/

/-- The step duration in ticks. -/
def FadeCurve.stepTicks (c : FadeCurve) : Nat := c.step * 10000

/-- The point index that a position set at `start` takes: the starting point index modulo the number of points (R27). -/
def FadeCurve.entryPos (c : FadeCurve) (start : Nat) : FadePos := ⟨start % c.points.length, 0⟩

/-- The fade position of new path values (R27). -/
def State.fadeEntry (s : State) (v : PathVals) : Option FadePos :=
  match v.fade with
  | none => none
  | some x =>
    match s.fadeAt x.profile with
    | none => none
    | some f => some (f.curve.entryPos x.index)

/-- One tick of a fade position (R37): the step ends when the elapsed time reaches the step duration; in ONCE mode at the
last point the position stops. -/
def FadeCurve.advance (c : FadeCurve) (p : FadePos) : FadePos :=
  let last := c.points.length ≤ p.index + 1
  if last && c.mode == .once then p
  else if p.elapsed + 1 < c.stepTicks then ⟨p.index, p.elapsed + 1⟩
  else if last then ⟨0, 0⟩
  else ⟨p.index + 1, 0⟩

/-- The gain at a fade position (R37). -/
def FadeCurve.gain (c : FadeCurve) (p : FadePos) : Nat :=
  let here := c.points.getD p.index 0
  let last := c.points.length ≤ p.index + 1
  if last && c.mode == .once then here
  else
    let next := c.points.getD (if last then 0 else p.index + 1) 0
    ((here : Int) + Int.tdiv (((next : Int) - here) * p.elapsed) c.stepTicks).toNat

/-- The present gain of a path: 1024 without a fade (R24); in SPENT, the gain at which it was frozen. -/
def State.pathGain (s : State) (p : Path) : Nat :=
  match p.frozenGain with
  | some g => g
  | none =>
    match p.vals.fade, p.pos with
    | some x, some pos =>
      match s.fadeAt x.profile with
      | some f => f.curve.gain pos
      | none => 1024
    | _, _ => 1024

/-- The rate counted by the held slots, and the rate that remains of the budget (R67). -/
def State.rateInUse (s : State) : Nat := (s.slots.cells.map (·.rate)).sum

/-- The remaining rate (R67). -/
def State.rateLeft (s : State) : Nat := Config.rateBudget - s.rateInUse

/-- The stream slot that a record holds (R67). -/
def State.slotOf (s : State) (h : EmitterHandle) : Option SlotNo :=
  (List.finRange 48).find? fun n => (s.slots.get n).owner == some h

end Sys2Proof.Machine
end

