-- ==== Sys2Proof/Machine/Flags.lean ====
section
/-!
DEFINITION. The flags of the part: lane causes and interrupts (R180, R181), attention on emitters, clips and ports (R5,
R132, R158), and the words that the control window shows (9.9).
-/

namespace Sys2Proof.Machine

/-- The lane causes, in the order of their bits (R180, 9.9). -/
inductive Cause where
  | blockNotify
  | ruIdle
  | ruSuspended
  | ruFaulted
  | commandRefused
  | emitterAttention
  | clipAttention
  | portAttention
  | triggerUnclaimed
  deriving DecidableEq, Repr

/-- The bit of a cause in the summary and the enable (9.9). -/
def Cause.bit : Cause → BitVec 9
  | .blockNotify => 0x001
  | .ruIdle => 0x002
  | .ruSuspended => 0x004
  | .ruFaulted => 0x008
  | .commandRefused => 0x010
  | .emitterAttention => 0x020
  | .clipAttention => 0x040
  | .portAttention => 0x080
  | .triggerUnclaimed => 0x100

/-- The interrupt condition of a lane: some cause is both set and enabled (R181). -/
def RequestUnit.interrupts (u : RequestUnit) : Bool := u.summary &&& u.enable != 0

/-- The summary and the enable of a lane take new values. The lane's interrupt message is sent when its condition passes
from not holding to holding (R181). -/
def State.writeCauses (s : State) (l : Lane) (summary enable : BitVec 9) : State :=
  let u := s.units.get l
  let v := { u with summary := summary, enable := enable }
  let t := s.setUnit l v
  if !u.interrupts && v.interrupts then t.send (.interrupt l) else t

/-- A cause is set in a lane's summary; one already set stays set (R180). -/
def State.setCause (s : State) (l : Lane) (c : Cause) : State :=
  let u := s.units.get l
  s.writeCauses l (u.summary ||| c.bit) u.enable

/-! ## Attention -/

/-- An attention cause is raised on an emitter record: added to the set with the flag set, and EMITTER_ATTENTION set for the
record's lane (R5). -/
def State.raiseEmitter (s : State) (h : EmitterHandle) (add : EmCauses → EmCauses) : State :=
  match s.recordAt h with
  | none => s
  | some r => (s.putRecord h.slot { r with attention := true, causes := add r.causes }).setCause r.lane .emitterAttention

def EmCauses.addSpentUnrequested (c : EmCauses) : EmCauses := { c with spentUnrequested := true }
def EmCauses.addFault (c : EmCauses) : EmCauses := { c with fault := true }
def EmCauses.addSuperseded (c : EmCauses) : EmCauses := { c with superseded := true }
def EmCauses.addLateStart (c : EmCauses) : EmCauses := { c with lateStart := true }
def EmCauses.addRecovered (c : EmCauses) : EmCauses := { c with recovered := true }

/-- An emitter's cause set is emptied and its flag cleared (R5, R20, R182). -/
def Record.clearAttention (r : Record) : Record := { r with attention := false, causes := {} }

/-- A clip's cause set is emptied and its flag cleared (R132, R144). -/
def Clip.clearAttention (c : Clip) : Clip := { c with attention := false, causes := {} }

/-- READ_ERROR is raised on a clip, which sets CLIP_ATTENTION for its lane (R132, R143). -/
def State.raiseReadError (s : State) (c : ClipHandle) : State :=
  match s.clipAt c with
  | none => s
  | some x =>
    (s.putClip c.slot { x with attention := true, causes := { x.causes with readError := true } }).setCause x.lane
      .clipAttention

/-- A port's cause set is emptied and its flag cleared (R158, R165). -/
def PortRec.clearAttention (r : PortRec) : PortRec := { r with attention := false, causes := {} }

/-- An attention cause is raised on a port, which sets PORT_ATTENTION for its owner lane as it stands (R158). -/
def State.raisePort (s : State) (p : Port) (add : PortCauses → PortCauses) : State :=
  let r := s.ports.get p
  (s.setPort p { r with attention := true, causes := add r.causes }).setCause r.owner .portAttention

def PortCauses.addPortFault (c : PortCauses) : PortCauses := { c with portFault := true }
def PortCauses.addHeadLost (c : PortCauses) : PortCauses := { c with headLost := true }

/-! ## Words of the control window (9.9) -/

/-- The part identity: the part number 896, and the design revision above it. -/
def partIdentity : BitVec 32 := Config.designRevision ++ (896 : BitVec 16)

/-- The start-up status: READY, PROFILE_DEFAULTS, PROFILE_PARTIAL (R192). -/
def State.startUpStatus (s : State) : BitVec 32 :=
  (if s.phase = .ready then 1 else 0) ||| (if s.profileDefaults then 2 else 0) ||| (if s.profilePartial then 4 else 0)

/-- The state bits of a unit. -/
def UnitState.code : UnitState → BitVec 32
  | .idle => 0
  | .active _ => 1
  | .suspended => 2
  | .faulted _ => 3

/-- The phase bits of a unit; the three reads of a fetch show FETCHING. -/
def Phase.code : Phase → BitVec 32
  | .fetchHeader | .fetchRequest | .readLink => 0
  | .waitingTurn => 1
  | .handed => 2
  | .held => 3
  | .writing => 4

/-- The fault detail bits of a unit. -/
def UnitFault.code : UnitFault → BitVec 32
  | .linkRead => 1
  | .linkWrite => 2
  | .window => 3
  | .alignment => 4

/-- The unit state word at +0x0C of a lane's window: bits 0-1 state, 4-6 phase, 8-10 fault detail. R169 gives a unit a phase only
while it is ACTIVE, and 9.9 does not say what bits 4-6 read otherwise: they read 0 here, the value of FETCHING (DESIGN CHOICE,
notes/assumptions/53.md). -/
def UnitState.word (u : UnitState) : BitVec 32 :=
  let phase : BitVec 32 := match u with
    | .active p => p.code
    | .idle | .suspended | .faulted _ => 0
  let detail : BitVec 32 := match u with
    | .faulted d => d.code
    | .idle | .suspended | .active _ => 0
  u.code ||| (phase <<< 4) ||| (detail <<< 8)

/-- The 4-byte word that a read of the control window shows at an offset, for the fields whose reading changes nothing; the
two reads of scene time are commands of their own (R186). 9.9 gives 0 for the two command fields and for the bits of summary and
enable above 8; what an offset reads at which it gives no field, it does not say: 0 here (DESIGN CHOICE, notes/assumptions/54.md).
-/
def State.windowWord (s : State) (offset : Nat) : BitVec 32 :=
  if offset = 0x000 then partIdentity
  else if offset = 0x004 then s.startUpStatus
  else if h : 0x100 ≤ offset ∧ offset < 0x200 then
    let u := s.units.get ⟨(offset - 0x100) / 0x40, by omega⟩
    match (offset - 0x100) % 0x40 with
    | 0x00 => u.listBase.setWidth 32
    | 0x04 => (u.listBase >>> 32).setWidth 32
    | 0x0C => u.state.word
    | 0x10 => u.current.setWidth 32
    | 0x14 => (u.current >>> 32).setWidth 32
    | 0x18 => u.summary.setWidth 32
    | 0x1C => u.enable.setWidth 32
    | _ => 0
  else 0

/-! ## Status codes (R179) -/

/-- The value of a status code. -/
def Status.code : Status → Nat
  | .done => 0
  | .aborted => 1
  | .badRequest => 16
  | .range => 17
  | .staleHandle => 32
  | .laneDenied => 33
  | .wrongState => 34
  | .inUse => 35
  | .noEntry => 48
  | .poolExhausted => 49
  | .portFull => 50
  | .headroom => 51
  | .clipNotReady => 64
  | .rateMismatch => 65
  | .delayRange => 66
  | .tooLate => 67
  | .overlap => 68
  | .crcMismatch => 69
  | .portBusy => 70
  | .portUnfitted => 71
  | .headNoResponse => 72
  | .linkReadError => 80
  | .windowViolation => 81

end Sys2Proof.Machine

namespace Sys2Proof

/-! ## Flags of a block's header (9.9) -/

def Header.notify (h : Header) : Bool := h.flags.getLsbD 0
def Header.suspend (h : Header) : Bool := h.flags.getLsbD 1
def Header.stop (h : Header) : Bool := h.flags.getLsbD 2
def Header.clear (h : Header) : Bool := h.flags.getLsbD 3
def Header.lateOk (h : Header) : Bool := h.flags.getLsbD 4

end Sys2Proof
end

