-- ==== Sys2Proof/Machine/Operands.lean ====
section
/-!
DEFINITION. The operands of requests: reading the encoded fields of 9.9, the form checks that the request engine makes at
the hand-over (R168), and the fixed ranges that the owners check (R14, R36).
-/

namespace Sys2Proof

open Machine

/-! ## Reading encoded fields -/

/-- The emitter handle of a request, when its slot is 0 to 95 (R8). -/
def RawHandle.emitter (h : RawHandle) : Option EmitterHandle :=
  if lt : h.slot.toNat < 96 then some ⟨⟨h.slot.toNat, lt⟩, h.gen⟩ else none

/-- The clip handle of a request; every byte is a slot 0 to 255. -/
def RawHandle.clip (h : RawHandle) : ClipHandle := ⟨h.slot.toFin, h.gen⟩

/-- The fade handle of a request, when its slot is 0 to 15 (R36). -/
def RawHandle.fade (h : RawHandle) : Option FadeHandle :=
  if lt : h.slot.toNat < 16 then some ⟨⟨h.slot.toNat, lt⟩, h.gen⟩ else none

/-- The number of a port or a trigger, when it is 0 to 7 (9.9). -/
def Machine.eight (b : BitVec 8) : Option (Fin 8) := if lt : b.toNat < 8 then some ⟨b.toNat, lt⟩ else none

/-- The number of a lane or a cue line, when it is 0 to 3 (9.9). -/
def Machine.four (b : BitVec 8) : Option (Fin 4) := if lt : b.toNat < 4 then some ⟨b.toNat, lt⟩ else none

/-- What a start point field carries: nothing, or a point whose trigger may be out of range. -/
inductive Machine.StartGiven where
  | absent
  | now
  | at (time : BitVec 64)
  | on (trigger : BitVec 64)
  | malformed
  deriving DecidableEq, Repr

/-- The reading of a start point (9.9): kind 0 absent, 1 NOW, 2 AT, 3 ON; the value is zero for the first two. -/
def StartField.given (f : StartField) : StartGiven :=
  if f.kind = 0 then (if f.value = 0 then .absent else .malformed)
  else if f.kind = 1 then (if f.value = 0 then .now else .malformed)
  else if f.kind = 2 then .at f.value
  else if f.kind = 3 then .on f.value
  else .malformed

/-- The start point, when one is present and its trigger is one of T0 to T7. -/
def Machine.StartGiven.point : StartGiven → Option StartPoint
  | .now => some .now
  | .at t => some (.at t)
  | .on n => if lt : n.toNat < 8 then some (.on ⟨n.toNat, lt⟩) else none
  | .absent | .malformed => none

/-- Whether a start point's trigger is one of T0 to T7 (R14, R48). -/
def Machine.StartGiven.inRange : StartGiven → Bool
  | .on n => n.toNat < 8
  | .absent | .now | .at _ | .malformed => true

/-- The stop point that a CREATE or MODIFY carries (9.9). -/
def StopField.change (f : StopField) : FieldChange (BitVec 64) :=
  if f.kind = 1 then .set f.time else if f.kind = 2 then .remove else .keep

/-- The cue that a CREATE or MODIFY carries (9.9); its line is read in range. -/
def CueField.change (f : CueField) : FieldChange Cue :=
  if f.kind = 1 then
    match four f.line with
    | some q => .set ⟨f.sample.toNat, q⟩
    | none => .keep
  else if f.kind = 2 then .remove
  else .keep

/-- The value that a field change sets, if it sets one. -/
def Machine.FieldChange.value {α : Type} : FieldChange α → Option α
  | .set a => some a
  | .keep | .remove => none

/-- The field after a change. -/
def Machine.FieldChange.apply {α : Type} (c : FieldChange α) (old : Option α) : Option α :=
  match c with
  | .keep => old
  | .set a => some a
  | .remove => none

/-- The path values of an encoded path record (9.9). -/
def PathField.vals (f : PathField) : PathVals where
  delay := f.delay.toNat
  weight := f.weight.toNat
  phase := f.phase.toNat
  doppler := f.doppler.toInt
  fade :=
    if f.fadePresent = 1 then
      match f.fade.fade with
      | some h => some ⟨h, f.fadeIndex.toNat⟩
      | none => none
    else none

/-- The loop mode of a loop field, when its kind is known. -/
def LoopField.mode : LoopField → Option LoopMode
  | .once => some .once
  | .loop a b => some (.loop a.toNat b.toNat)
  | .unknown => none

/-! ## Form (R168) -/

/-- The encoding of a path record: fade-present 0 or 1, the handle zero when there is no fade, the spare bytes zero. -/
def PathField.wellEncoded (f : PathField) : Bool :=
  f.fadePresent.toNat ≤ 1 && f.spare == 0 && (f.fadePresent == 1 || f.fade == ⟨0, 0⟩)

/-- The encoding of a start point. -/
def StartField.wellEncoded (f : StartField) : Bool := f.given != .malformed

/-- The fields of a request whose encoding 9.9 fixes hold values of that encoding. -/
def Request.wellEncoded : Request → Bool
  | .create q => q.paths.all (·.wellEncoded) && q.start.wellEncoded && q.stop.kind.toNat ≤ 2 && q.cue.kind.toNat ≤ 2
  | .start q => q.start.wellEncoded
  | .modify q => (q.paths.getD []).all (·.wellEncoded) && q.stop.kind.toNat ≤ 2 && q.cue.kind.toNat ≤ 2
  | .nop | .pause _ | .resume _ | .retire _ | .queryEmitter _ | .defineClip _ | .loadClip _ | .retireClip _ | .queryClip _
  | .defineFade _ | .retireFade _ | .configurePort _ | .restartPort _ | .setOutput _ | .queryPort _ | .scan _
  | .flushLane _ | .setLane _ | .setTime _ => true

/-- The kind byte of a request (9.9). -/
def Request.kind : Request → BitVec 8
  | .nop => 0
  | .create _ => 1
  | .start _ => 2
  | .modify _ => 3
  | .pause _ => 4
  | .resume _ => 5
  | .retire _ => 6
  | .queryEmitter _ => 7
  | .defineClip _ => 8
  | .loadClip _ => 9
  | .retireClip _ => 10
  | .queryClip _ => 11
  | .defineFade _ => 12
  | .retireFade _ => 13
  | .configurePort _ => 14
  | .restartPort _ => 15
  | .setOutput _ => 16
  | .queryPort _ => 17
  | .scan _ => 18
  | .flushLane _ => 19
  | .setLane _ => 20
  | .setTime _ => 21

/-- The lengths that a header gives are 0 to 62 and 0 to 64 words (R167, R173). -/
def Header.lengthsOk (h : Header) : Bool := h.reqLen.toNat ≤ 62 && h.resLen.toNat ≤ 64

/-- The bytes of a path list: its count, and 16 for each record (9.9). -/
def pathListBytes (ps : List PathField) : Nat := 1 + 16 * ps.length

/-- The bytes of a field that a request may leave out. -/
def carriedBytes {α : Type} (f : Option α) (bytes : Nat) : Nat := if f.isSome then bytes else 0

/-- The bytes of a loop's sample indices: start and end. -/
def LoopField.encodedBytes : LoopField → Nat
  | .loop _ _ => 4 + 4
  | .once | .unknown => 0

/-- The bytes of an apply point's scene time or trigger number. -/
def ApplyField.encodedBytes : ApplyField → Nat
  | .at _ => 8
  | .on _ => 1
  | .now | .nextFrame | .unknown => 0

/-- The bytes of a clock source's leader or rate. -/
def ClockField.encodedBytes : ClockField → Nat
  | .follow _ => 1
  | .external _ => 4
  | .synth _ | .unknown => 0

/-- The bytes of the fields of a request whose encodings 9.9 fixes: a handle 2; a port, trigger or lane number or a port set 1; an
address or a scene time 8; a start or stop point 9; a cue 6; a sample index, length, rate, CRC or carrier offset 4. 9.9 gives a stop
point and a cue a kind and 'then' the time, or the sample and line, and does not say whether those bytes stand there for a kind of 0
or 2: they count for every kind (DESIGN CHOICE, notes/assumptions/59.md). -/
def Request.encodedBytes : Request → Nat
  | .nop | .scan _ => 0
  | .create q => 2 + 4 + q.loop.encodedBytes + 4 + 1 + pathListBytes q.paths + 9 + 9 + 6
  | .start _ => 2 + 9
  | .modify q => 2 + q.apply.encodedBytes + (match q.paths with
      | some ps => pathListBytes ps
      | none => 0) + carriedBytes q.carrier 4 + carriedBytes q.ports 1 + (match q.loop with
      | some m => m.encodedBytes
      | none => 0) + 9 + 6
  | .pause _ | .resume _ | .retire _ | .queryEmitter _ | .retireClip _ | .queryClip _ | .retireFade _ => 2
  | .defineClip _ => 4 + 4 + 4
  | .loadClip _ => 2 + 8
  | .defineFade q => carriedBytes q.profile 2
  | .configurePort q => 1 + q.clock.encodedBytes + 1
  | .restartPort _ | .setOutput _ | .queryPort _ | .flushLane _ => 1
  | .setLane q => 1 + carriedBytes q.window 16 + (1 + 1) * q.triggers.length
  | .setTime _ => 8

/-- The kind of a loop field, which 9.9 does not encode. -/
def LoopField.form : LoopField → Nat
  | .once => 0
  | .loop _ _ => 1
  | .unknown => 2

/-- The kind of an apply point, which 9.9 does not encode. -/
def ApplyField.form : ApplyField → Nat
  | .now => 0
  | .nextFrame => 1
  | .at _ => 2
  | .on _ => 3
  | .unknown => 4

/-- The kind of a clock source, which 9.9 does not encode. -/
def ClockField.form : ClockField → Nat
  | .synth _ => 0
  | .follow _ => 1
  | .external _ => 2
  | .unknown => 3

/-- Which of the fields without an encoding in 9.9 a request carries, of which kind, and how many items of them, for the free
byte count of Config; none for a kind all of whose fields have an encoding (notes/assumptions/42.md). -/
def Request.plainShape : Request → Option (List Nat)
  | .nop | .start _ | .pause _ | .resume _ | .queryEmitter _ | .retireClip _ | .queryClip _ | .retireFade _ | .restartPort _
  | .queryPort _ | .flushLane _ | .setTime _ => none
  | .retire _ | .defineClip _ | .loadClip _ | .setOutput _ => some []
  | .create q => some [q.loop.form]
  | .modify q => some [carriedBytes q.loop 1, (match q.loop with
      | some m => m.form
      | none => 0), q.apply.form, q.unmodifiable.toNat]
  | .defineFade q => some [q.points.length]
  | .configurePort q => some [q.clock.form]
  | .scan first => some [carriedBytes first 1]
  | .setLane q => some [carriedBytes q.interval 1, q.triggers.length]

/-- The bytes that the fields of a request without an encoding take: the free count, but never so many that a request whose other
fields fit into the 62 words of the longest request area does not (notes/assumptions/42.md). -/
def Request.plainBytes (r : Request) : Nat :=
  match r.plainShape with
  | some shape => min (Config.plainBytes r.kind.toNat shape) (8 * 62 - r.encodedBytes)
  | none => 0

/-- The bytes that the fields of a request need (R168). -/
def Request.bytesNeeded (r : Request) : Nat := r.encodedBytes + r.plainBytes

/-- The form of a fetched block (R168): a known kind, lengths in range, not both SUSPEND and END, flag bits 5 to 7 zero, an
area long enough for the fields of the kind, and fields in their encoding. -/
def Machine.Block.formOk (b : Block) : Bool :=
  b.header.kind.toNat ≤ 21 && b.header.lengthsOk && !(b.header.suspend && b.header.stop) && b.header.flags.toNat < 32 &&
  (match b.area with
   | some r => r.kind == b.header.kind && r.bytesNeeded ≤ 8 * b.header.reqLen.toNat && r.wellEncoded
   | none => false)

/-- The bytes from a block's address to the end of its result area (R167). -/
def Header.extent (h : Header) : Nat := 16 + 8 * h.reqLen.toNat + 8 * h.resLen.toNat

/-! ## Fixed ranges (R14) -/

/-- The fixed ranges of a path record (R14, step 2), a fade's slot included (R36). The starting point index byte is held to 0 to 63
as it stands, also in a record that carries no fade: 9.9 asks for zero there in the handle, and says nothing of the index (DESIGN
CHOICE, notes/assumptions/55.md). -/
def PathField.inRange (f : PathField) : Bool :=
  f.delay.toNat ≤ 8191 && f.weight.toNat ≤ 1023 && f.phase.toNat ≤ 359 &&
  decide (-200000 ≤ f.doppler.toInt) && decide (f.doppler.toInt ≤ 200000) && f.fadeIndex.toNat ≤ 63 &&
  (f.fadePresent != 1 || f.fade.fade.isSome)

/-- The fixed ranges of a loop (R14, step 2). -/
def LoopField.inRange : LoopField → Bool
  | .loop a b => a.toNat < b.toNat && 1024 ≤ b.toNat - a.toNat
  | .once | .unknown => true

/-- The fixed range of a cue: its line is one of Q0 to Q3 (R14, step 2). -/
def CueField.inRange (f : CueField) : Bool := f.kind != 1 || (four f.line).isSome

/-- Whether a window lets a lane use the bytes from `addr` for `len` bytes; a lane without a window passes (R177). -/
def Machine.windowAllows (w : Option HostWindow) (addr len : Nat) : Bool :=
  match w with
  | none => true
  | some w => w.base.toNat ≤ addr && addr + len ≤ w.limit.toNat + 1

end Sys2Proof
end

