-- ==== Sys2Proof/Machine/Holdings.lean ====
section
/-!
DEFINITION. What a record holds in other blocks, and how it is taken and given back: port memberships and reservations
(R99, R100, R103, R119, R149), clip references (R120, R140, R142), waiting places (R54), stream slots (R68), staged changes
(R30, R108), the spent procedure (R117) and the flush of an entry (R124). The ports and the clip catalog take their part
within the sender's event (notes/assumptions/4.md).
-/

namespace Sys2Proof.Machine

/-! ## A port's accounts -/

/-- A join: any reservation of the handle is removed, and the handle is added at the tail with its weight; a handle stands
in the list at most once (R103, R149). For a handle that is already a member no rule says what a join does beyond that: here it
keeps its weight and its place, and the new weight is disregarded (DESIGN CHOICE, notes/assumptions/58.md). -/
def PortRec.join (r : PortRec) (h : EmitterHandle) (weight : Nat) : PortRec :=
  { r with
    reservations := r.reservations.filter fun x => x.handle != h
    members := if r.members.any (fun m => m.handle == h) then r.members else r.members ++ [⟨h, weight, []⟩] }

/-- A weight message: the member's weight becomes the new value in its place, and any reservation of the handle is removed
(R103, R149). -/
def PortRec.reweigh (r : PortRec) (h : EmitterHandle) (weight : Nat) : PortRec :=
  { r with
    reservations := r.reservations.filter fun x => x.handle != h
    members := r.members.map fun m => if m.handle == h then { m with weight := weight } else m }

/-- A leave: the handle leaves with its hand-over, the members after it keep their order (R119, R150). -/
def PortRec.leave (r : PortRec) (h : EmitterHandle) : PortRec :=
  { r with members := r.members.filter fun m => m.handle != h }

/-- A reservation claim; a port holds at most one reservation for each handle (R99, R100). -/
def PortRec.claim (r : PortRec) (h : EmitterHandle) (join : Bool) (increase : Nat) : PortRec :=
  { r with reservations := (r.reservations.filter fun x => x.handle != h) ++ [⟨h, join, increase⟩] }

/-- A reservation release (R100). -/
def PortRec.unclaim (r : PortRec) (h : EmitterHandle) : PortRec :=
  { r with reservations := r.reservations.filter fun x => x.handle != h }

/-- The port record is changed by `f`. -/
def State.modifyPort (s : State) (p : Port) (f : PortRec → PortRec) : State := s.setPort p (f (s.ports.get p))

def State.joinPort (s : State) (p : Port) (h : EmitterHandle) (weight : Nat) : State :=
  s.modifyPort p fun r => r.join h weight

def State.weighPort (s : State) (p : Port) (h : EmitterHandle) (weight : Nat) : State :=
  s.modifyPort p fun r => r.reweigh h weight

def State.leavePort (s : State) (p : Port) (h : EmitterHandle) : State :=
  s.modifyPort p fun r => r.leave h

def State.claimPort (s : State) (p : Port) (h : EmitterHandle) (join : Bool) (increase : Nat) : State :=
  s.modifyPort p fun r => r.claim h join increase

def State.releasePort (s : State) (p : Port) (h : EmitterHandle) : State :=
  s.modifyPort p fun r => r.unclaim h

/-- Every listed port, in order, is sent a join (R17, step 5). -/
def State.joinPorts (s : State) (ps : List Port) (h : EmitterHandle) (weight : Nat) : State :=
  ps.foldl (fun s p => s.joinPort p h weight) s

/-- Every listed port, in order, is sent a leave (R117, step 4). -/
def State.leavePorts (s : State) (ps : List Port) (h : EmitterHandle) : State :=
  ps.foldl (fun s p => s.leavePort p h) s

/-! ## Clip references -/

/-- A reference take: the clip's count rises by one (R140). -/
def State.takeReference (s : State) (c : ClipHandle) : State :=
  match s.clipAt c with
  | none => s
  | some x => s.putClip c.slot { x with refs := x.refs + 1 }

/-- The draining of a clip whose last reference has gone (R142): DRAINED attention, CLIP_ATTENTION for its lane, a drained
note under the old handle, and the slot EMPTY with its generation kept. -/
def State.drainClip (s : State) (c : ClipHandle) (x : Clip) : State :=
  let causes := { x.causes with drained := true }
  (s.setClip c.slot
    { s.clips.get c.slot with
      clip := none
      note := some ⟨c, x.lane, causes, x.corrected, x.uncorrectable⟩ }).setCause x.lane .clipAttention

/-- A reference release: the clip's count falls by one, and a DRAINING clip whose count falls to 0 drains (R120, R142). -/
def State.releaseReference (s : State) (c : ClipHandle) : State :=
  match s.clipAt c with
  | none => s
  | some x =>
    if x.refs ≤ 1 && x.state == .draining then s.drainClip c { x with refs := 0 }
    else s.putClip c.slot { x with refs := x.refs - 1 }

/-! ## Waiting places and stream slots -/

/-- The record leaves the time arm set, its trigger's arm list or the grant queue; the order of the rest is kept (R54, R72). -/
def State.leaveWaiting (s : State) (h : EmitterHandle) : State :=
  { s with
    armSet := s.armSet.filter fun k => k != h
    grantQueue := s.grantQueue.filter fun k => k != h
    triggers := s.triggers.map fun t => { t with armList := t.armList.filter fun k => k != h } }

/-- A held slot is released (R68): it becomes free, and a read in flight is not recalled. -/
def State.releaseSlot (s : State) (h : EmitterHandle) : State :=
  match s.slotOf h with
  | none => s
  | some n =>
    let x := s.slots.get n
    { s.setSlot n .free with strayReads := s.strayReads ++ x.fetch.toList }

/-! ## Staged changes -/

/-- A change leaves the place where it waits (R101): its AT apply point is withdrawn, or it leaves its trigger's apply list;
a NEXT_FRAME expiry is not withdrawn. -/
def State.leaveApplyPlace (s : State) (h : EmitterHandle) (c : Change) : State :=
  match c.apply with
  | .nextFrame => s
  | .at _ => s.withdraw fun e => e == .atApply h c.number
  | .on t =>
    let r := s.triggers.get t
    s.setTrigger t { r with applyList := r.applyList.filter fun k => k != h }

/-- Each port reservation of a change is released at its port (R98, R100, R108). -/
def State.releaseReservations (s : State) (h : EmitterHandle) (c : Change) : State :=
  c.portReservations.foldl (fun s x => s.releasePort x.port h) s

/-- A staged change is withdrawn or discarded (R30, R98, R108): its port reservations and its waiting place go, and it leaves
the entry, its pool marks and fade uses with it. -/
def State.withdrawChange (s : State) (h : EmitterHandle) : State :=
  match s.recordAt h with
  | none => s
  | some r =>
    match r.staged with
    | none => s
    | some c => ((s.releaseReservations h c).leaveApplyPlace h c).putRecord h.slot { r with staged := none }

/-! ## The spent procedure and the flush -/

/-- Steps 1 to 6 of the spent procedure (R117) for a record in a holding state; a SPENT record holds nothing. The path
records are free when the record has left the holding states (R31). -/
def State.releaseHoldings (s : State) (h : EmitterHandle) : State :=
  match s.recordAt h with
  | none => s
  | some r =>
    if r.state.isHolding then
      let s := s.withdrawChange h
      let s := (s.leaveWaiting h).withdraw fun e => e.isStartOrStopOf h
      let s := s.releaseSlot h
      let s := s.leavePorts (portsOf r.ports) h
      s.releaseReference r.clip
    else s

/-- The entry becomes FREE and leaves the spent list; its slot generation is kept and its unused mark stays clear (R22,
R124). -/
def State.freeEntry (s : State) (h : EmitterHandle) : State :=
  { s.setEntry h.slot { s.entries.get h.slot with record := none } with
    spentList := s.spentList.filter fun k => k != h }

/-- The record as the spent procedure leaves it (R6, R117, steps 7 and 8): the spent record written, the fade gains frozen
with the image (R24). The final play position is the one at entering SPENT, as R6 says, for every cause. R81 gives the clip length
for END_OF_CLIP; the two differ where a change to LOOP is applied while the end-of-clip report is on its way and moves the position
(DESIGN CHOICE, notes/assumptions/46.md). -/
def State.spentImage (s : State) (r : Record) (cause : SpentCause) : Record :=
  { r with
    state := .spent
    staged := none
    ramp := none
    paths := r.paths.map fun p => { p with frozenGain := some (s.pathGain p) }
    spent := some ⟨cause, r.playPosition⟩ }

/-- Whether a spent cause raises SPENT_UNREQUESTED (R118). -/
def SpentCause.unrequested : SpentCause → Bool
  | .endOfClip | .stopPoint => true
  | .retired | .faultRetired => false

/-- The spent interval begins (R21): above 0, the entry joins the tail of the spent list and a spent expiry is asked of the
timer; with 0 the entry becomes FREE at once. -/
def State.beginSpentInterval (s : State) (h : EmitterHandle) (lane : Lane) : State :=
  let ms := s.spentIntervals.get lane
  if ms = 0 then s.freeEntry h
  else
    let s := { s with spentList := s.spentList ++ [h] }
    s.request (.spent h) (s.now + ms * 10000)

/-- The spent procedure (R117), for the record of an accepted handle. -/
def State.enterSpent (s : State) (h : EmitterHandle) (cause : SpentCause) : State :=
  match s.recordAt h with
  | none => s
  | some r =>
    let s := (s.releaseHoldings h).putRecord h.slot (s.spentImage r cause)
    let s := if cause.unrequested then s.raiseEmitter h .addSpentUnrequested else s
    s.beginSpentInterval h r.lane

/-- The flush of one entry (R124): its holdings are given back, and it becomes FREE with no spent record. -/
def State.flushEntry (s : State) (h : EmitterHandle) : State := (s.releaseHoldings h).freeEntry h

/-- The handle of the record that stands in an entry, if any. -/
def State.handleAt (s : State) (i : EntryNo) : Option EmitterHandle :=
  let e := s.entries.get i
  e.record.map fun _ => ⟨i, e.gen⟩

/-- Every non-FREE entry whose record `sel` names is taken to FREE, in ascending slot order (R123, R125). -/
def State.flushWhere (s : State) (sel : Record → Bool) : State :=
  (List.finRange 96).foldl (fun s i =>
    match (s.entries.get i).record, s.handleAt i with
    | some r, some h => if sel r then s.flushEntry h else s
    | _, _ => s) s

/-- The number of entries that a flush takes to FREE (R123). -/
def State.countWhere (s : State) (sel : Record → Bool) : Nat := (s.records.filter sel).length

end Sys2Proof.Machine
end

