-- ==== Sys2Proof/Machine/Stream.lean ====
section
/-!
DEFINITION. The fetch arbiter and the stream engine (chapter 4): GRANT, RUN_READ_DONE, DEMAND_READ_DONE,
SLOT_OUTPUT_SAMPLE, and the controller's taking of the reports that the stream engine sends: PRIMED_REPORT,
END_OF_CLIP_REPORT, RECOVERED_REPORT, FAILURE_REPORT.
-/

namespace Sys2Proof.Machine

/-- The taking of a message or raised expiry that is on its way, with effect `f`; where none is on its way there is no such
event and nothing changes (notes/assumptions/2.md, 3.md). -/
def State.onMessage (s : State) (m : Message) (f : State → State) : Out :=
  match s.take m with
  | some t => .next (f t)
  | none => .next s

/-! ## Played order and runs (R77, R79) -/

/-- The position played after position `p` of a clip of `len` samples (R79). -/
def LoopMode.after (m : LoopMode) (len p : Nat) : Nat :=
  match m with
  | .once => p + 1
  | .loop a b => if p + 1 = b ∨ len ≤ p + 1 then a else p + 1

/-- The position from which play goes on: a LOOP whose position stands at the clip length, as a change made during the tail
leaves it, goes on at the loop start (R82). -/
def LoopMode.resumeAt (m : LoopMode) (len p : Nat) : Nat :=
  match m with
  | .once => p
  | .loop a _ => if len ≤ p then a else p

/-- Where the samples from `p` onward stop being consecutive: the loop end, or the clip length (R77, R79). -/
def LoopMode.seqEnd (m : LoopMode) (len p : Nat) : Nat :=
  match m with
  | .once => len
  | .loop _ b => if p < b then b else len

/-- The longest run that may begin at `p`: 1,024 samples, the page, the loop end, the clip length (R77). -/
def runLimit (m : LoopMode) (len p : Nat) : Nat :=
  min Config.maxRun (min (Config.pageSamples - p % Config.pageSamples) (m.seqEnd len p - p))

/-- The owner of a held slot, its record and its clip. -/
def State.slotView (s : State) (n : SlotNo) : Option (EmitterHandle × Record × Clip) :=
  match (s.slots.get n).owner with
  | none => none
  | some h =>
    match s.recordAt h with
    | none => none
    | some r =>
      match s.clipAt r.clip with
      | none => none
      | some c => some (h, r, c)

/-- The length of the next run (R77): any length within the bounds (notes/assumptions/6.md). Where the slot does not play,
the window is to become exactly full (R73, R83), so the run also fits the room that is left. -/
def runLength (state : EmState) (limit room choice : Nat) : Nat :=
  let bound := if state.sounds then limit else min limit room
  if bound = 0 then 0 else 1 + choice % bound

/-- While a slot is RUNNING with no run in flight, it issues the next run as soon as the window has room for the whole of it
(R77). -/
def State.issueRun (s : State) (n : SlotNo) : State :=
  match s.slotView n with
  | none => s
  | some (h, r, c) =>
    let x := s.slots.get n
    let room := Config.windowSize - x.window.length
    let len := runLength r.state (runLimit r.loop c.length x.nextPos) room (Config.runChoice s.nextTag)
    if x.fetchState = .running ∧ x.fetch = none ∧ 0 < len ∧ len ≤ room then
      (s.setSlot n { x with fetch := some ⟨s.nextTag, h, r.clip, ⟨x.nextPos, len⟩, false, false⟩ }).bumpTag
    else s

/-- The failed run is read once more as a demand read, and the slot is DEMAND (R87, R90). -/
def State.issueDemand (s : State) (n : SlotNo) : State :=
  let x := s.slots.get n
  match s.slotView n, x.failed with
  | some (h, r, _), some run =>
    (s.setSlot n { x with fetchState := .demand, fetch := some ⟨s.nextTag, h, r.clip, run, true, false⟩ }).bumpTag
  | _, _ => s

/-- Priming is complete when the window is full or holds the rest of a ONCE clip; the primed report is sent once for each
grant (R73). -/
def State.checkPrimed (s : State) (n : SlotNo) : State :=
  match s.slotView n with
  | none => s
  | some (h, r, c) =>
    let x := s.slots.get n
    if r.state = .priming ∧ x.primed = false ∧
        (Config.windowSize ≤ x.window.length ∨ (r.loop = .once ∧ c.length ≤ x.nextPos)) then
      (s.setSlot n { x with primed := true }).post (.primed h)
    else s

/-- The samples of a run as clip memory holds them (R85, R128). -/
def State.readRun (s : State) (c : Clip) (run : Run) : List WindowSample :=
  (List.range run.len).map fun k => ⟨run.start + k, s.clipSample c (run.start + k)⟩

/-- A run that was read is appended to the window, and the next position to fetch moves past it (R77, R88). -/
def State.appendRun (s : State) (n : SlotNo) (r : Record) (c : Clip) (run : Run) : State :=
  let x := s.slots.get n
  s.setSlot n
    { x with
      fetch := none
      failed := none
      fetchState := .running
      window := x.window ++ s.readRun c run
      nextPos := r.loop.after c.length (run.start + run.len - 1) }

/-! ## The grant (R69 to R73) -/

/-- The effective priority of a waiting record (R69). -/
def Record.effectivePriority (r : Record) : Nat := if 8 ≤ r.passedOver then 7 else r.priority

/-- The effective priority of a waiting entry. -/
def State.queuePriority (s : State) (h : EmitterHandle) : Nat :=
  match s.recordAt h with
  | some r => r.effectivePriority
  | none => 0

/-- The head of the grant queue: of the highest effective priority, the first in joining order (R69). -/
def State.queueHead (s : State) : Option EmitterHandle :=
  s.grantQueue.foldl (fun best h =>
    match best with
    | none => some h
    | some b => if s.queuePriority b < s.queuePriority h then some h else best) none

/-- The lowest-numbered free slot (R70). -/
def State.freeSlot (s : State) : Option SlotNo :=
  (List.finRange 48).find? fun n => (s.slots.get n).owner == none

/-- What a grant needs (R70): a head of the queue whose clip rate fits the remaining rate, and a free slot. -/
def State.grantable (s : State) : Option (EmitterHandle × SlotNo) :=
  match s.queueHead, s.freeSlot with
  | some h, some n =>
    match s.recordAt h with
    | none => none
    | some r =>
      match s.clipAt r.clip with
      | none => none
      | some c => if c.rate ≤ s.rateLeft then some (h, n) else none
  | _, _ => none

/-- The passed-over count of a waiting record rises by one, and stops at 8 (R71). -/
def Record.passOver (r : Record) : Record := { r with passedOver := satSucc 8 r.passedOver }

/-- The entries that joined before the granted one and stay in the queue are passed over (R71). -/
def State.ageBefore (s : State) (h : EmitterHandle) : State :=
  (s.grantQueue.takeWhile fun k => k != h).foldl (fun s k => s.modifyRecord k Record.passOver) s

/-- The slot at the start of priming (R73). -/
def StreamSlot.granted (h : EmitterHandle) (rate start : Nat) : StreamSlot :=
  { StreamSlot.free with owner := some h, rate := rate, nextPos := start }

/-- A grant of slot `n` to the head `h` (R70, R71, R73). -/
def State.grantTo (s : State) (h : EmitterHandle) (n : SlotNo) : State :=
  match s.recordAt h with
  | none => s
  | some r =>
    match s.clipAt r.clip with
    | none => s
    | some c =>
      let s := s.ageBefore h
      let s := { s with grantQueue := s.grantQueue.filter fun k => k != h }
      let s := s.setSlot n (.granted h c.rate r.startOffset)
      let s := s.putRecord h.slot { r with state := .priming, primedNoted := false }
      s.issueRun n

/-- GRANT (R70): the fetch arbiter grants the head of the queue; where the three conditions do not hold together there is no
grant. -/
def execGrant (s : State) : Out :=
  match s.grantable with
  | some (h, n) => .next (s.grantTo h n)
  | none => .next s

/-! ## Completed reads (R77, R85 to R90) -/

/-- The read of the given number whose slot has been released (R68). -/
def State.strayRead (s : State) (tag : Nat) (demand : Bool) : Option Fetch :=
  s.strayReads.find? fun f => f.tag == tag && f.demand == demand

/-- The read of a released slot completes: it is counted, and nothing else (R68, R85, R91). -/
def State.countStray (s : State) (tag : Nat) (demand : Bool) (outcome : ReadOutcome) : State :=
  match s.strayRead tag demand with
  | none => s
  | some f => { s with strayReads := s.strayReads.erase f }.post (.readCount f.clip outcome)

/-- The read in flight of a slot, when it has the given number and kind. -/
def State.liveRead (s : State) (n : SlotNo) (tag : Nat) (demand : Bool) : Option Fetch :=
  match (s.slots.get n).fetch with
  | some f => if f.tag = tag ∧ f.demand = demand then some f else none
  | none => none

/-- An uncorrectable window read: the slot is STALLED with the run as its failed run (R86); in PRIMING it becomes DEMAND at
once and issues the demand read (R90). -/
def State.stall (s : State) (n : SlotNo) (r : Record) (run : Run) : State :=
  let x := s.slots.get n
  let s := s.setSlot n { x with fetch := none, fetchState := .stalled, failed := some run }
  if r.state = .priming then s.issueDemand n else s

/-- A discarded read has arrived: its samples are disregarded, and with no run in flight any more the slot may issue its next
one (R77, R82). -/
def State.disregardRead (s : State) (n : SlotNo) : State :=
  (s.setSlot n { s.slots.get n with fetch := none }).issueRun n

/-- RUN_READ_DONE (R77, R82, R86, R90): a run read for the window completes, and its counting message is sent (R85). -/
def execRunReadDone (n : SlotNo) (tag : Nat) (outcome : ReadOutcome) (s : State) : Out :=
  match s.liveRead n tag false, s.slotView n with
  | some f, some (_, r, c) =>
    let s := s.post (.readCount f.clip outcome)
    if f.discarded then .next (s.disregardRead n)
    else if outcome = .uncorrectable then .next (s.stall n r f.run)
    else .next (((s.appendRun n r c f.run).checkPrimed n).issueRun n)
  | _, _ => .next (s.countStray tag false outcome)

/-- DEMAND_READ_DONE (R82, R88, R89): a demand read completes; a recovered or a failure report is sent. -/
def execDemandReadDone (n : SlotNo) (tag : Nat) (outcome : ReadOutcome) (s : State) : Out :=
  match s.liveRead n tag true, s.slotView n with
  | some f, some (h, r, c) =>
    let s := s.post (.readCount f.clip outcome)
    if f.discarded then .next (s.disregardRead n)
    else if outcome = .uncorrectable then
      .next ((s.setSlot n { s.slots.get n with fetch := none }).post (.failure h))
    else .next ((((s.appendRun n r c f.run).post (.recovered h)).checkPrimed n).issueRun n)
  | _, _ => .next (s.countStray tag true outcome)

/-! ## The output sample of a slot (R32, R34, R78 to R80, R87) -/

/-- The quotient `a / b` for `b` above 0, rounded to the nearest integer with halves away from zero (R34). -/
def roundDiv (a b : Int) : Int := if 0 ≤ a then (2 * a + b) / (2 * b) else -((-2 * a + b) / (2 * b))

/-- The advance of a rotation accumulator with each played sample (R34). -/
def accStep (carrier doppler : Int) (rate : Nat) : BitVec 32 :=
  BitVec.ofInt 32 (roundDiv ((carrier * 100 + doppler) * 4294967296) (100 * rate))

/-- The hand-over of a record: each path's sample from the echo line, by its delay, with its accumulator (R32, R34, R150), before
the accumulator's advance with this sample (DESIGN CHOICE, notes/assumptions/45.md). -/
def Record.handOver (r : Record) (echo : List Sample) : List HandOver :=
  r.paths.map fun p => ⟨echo.getD p.vals.delay Sample.zero, p.acc⟩

/-- The paths of a record after one played sample at the given clip rate: every accumulator advances (R34). -/
def Record.turnPaths (r : Record) (rate : Nat) : List Path :=
  r.paths.map fun p => { p with acc := p.acc + accStep r.carrier p.vals.doppler rate }

/-- A port keeps a member's latest hand-over (R150). -/
def PortRec.keepHandOver (r : PortRec) (h : EmitterHandle) (x : List HandOver) : PortRec :=
  { r with members := r.members.map fun m => if m.handle == h then { m with handOver := x } else m }

/-- The sample `y` enters the echo line of slot `n`, whose owner is `h` with record `r`; each port of the port set receives
the hand-over; the accumulators and the advance count rise (R78, steps 1, 2 and 4). R34 lets the accumulator advance with each sample
and does not say whether the sample itself is turned before or after its own advance: it is handed over with the value before it, so
the first sample is turned by 0 (DESIGN CHOICE, notes/assumptions/45.md). -/
def State.playSample (s : State) (n : SlotNo) (h : EmitterHandle) (r : Record) (rate : Nat) (y : Sample) : State :=
  let x := s.slots.get n
  let echo := (y :: x.echo).take Config.echoSize
  let s := s.setSlot n { x with echo := echo }
  let s := s.putRecord h.slot { r with advance := r.advance + 1, paths := r.turnPaths rate }
  (portsOf r.ports).foldl (fun s p => s.modifyPort p fun a => a.keepHandOver h (r.handOver echo)) s

/-- The pass count rises by one, and stops at its maximum (R79). -/
def Record.countPass (r : Record) : Record := { r with passCount := satSucc Config.countMax r.passCount }

/-- The play position moves on by one: the wrap of a LOOP (R79), or the clip length of a ONCE clip (R80). -/
def Record.movePosition (r : Record) (len : Nat) : Record :=
  match r.loop with
  | .once => { r with playPosition := r.playPosition + 1 }
  | .loop a b =>
    if r.playPosition + 1 = b ∨ len ≤ r.playPosition + 1 then { r with playPosition := a }.countPass
    else { r with playPosition := r.playPosition + 1 }

/-- A LOOP record whose position a change left at the clip length goes on at the loop start, with the pass count raised
(R82). -/
def Record.wrapTail (r : Record) (len : Nat) : Record :=
  match r.loop with
  | .once => r
  | .loop a _ => if len ≤ r.playPosition then { r with playPosition := a }.countPass else r

/-- A clip sample is played (R78). `w` is the window's first sample and `ws` the rest. -/
def State.playClip (s : State) (n : SlotNo) (h : EmitterHandle) (r : Record) (c : Clip) (w : WindowSample)
    (ws : List WindowSample) : State :=
  let x := s.slots.get n
  let moved := r.movePosition c.length
  let tail := if r.loop = .once ∧ c.length ≤ moved.playPosition then some r.advance else none
  let s := s.setSlot n { x with window := ws, tail := tail, heldTail := none }
  let s := s.playSample n h r c.rate w.sample
  let s := s.modifyRecord h fun k => { k with playPosition := moved.playPosition, passCount := moved.passCount }
  let s := match r.cue with
    | some q => if r.playPosition = q.sample then s.post (.crossing h q.line s.now) else s
    | none => s
  s.issueRun n

/-- A zero of the ONCE tail is played, and the end of the clip is found at the first sample at which every path plays a zero
(R80). -/
def State.playTail (s : State) (n : SlotNo) (h : EmitterHandle) (r : Record) (c : Clip) (tail : Nat) : State :=
  let x := s.slots.get n
  let found := tail + r.longestDelay < r.advance
  let s := s.playSample n h r c.rate Sample.zero
  if found ∧ x.endFound = false then
    (s.setSlot n { s.slots.get n with endFound := true }).post (.endOfClip h)
  else s

/-- A gap zero is played while the demand read is outstanding (R87); the play position stays. -/
def State.playGap (s : State) (n : SlotNo) (h : EmitterHandle) (r : Record) (c : Clip) : State :=
  let s := if (s.slots.get n).fetchState = .stalled then s.issueDemand n else s
  s.playSample n h { r with gapSamples := satSucc Config.countMax r.gapSamples } c.rate Sample.zero

/-- SLOT_OUTPUT_SAMPLE (R78, R80, R87): one output sample of a slot whose entry is ON_AIR or FADING. A RUNNING slot always
holds the sample that falls due (R77), so an output sample that finds none is no event (notes/assumptions/19.md). A DEMAND slot
whose demand read has failed again goes on playing gap zeros, each raising the gap samples, until its failure report is taken:
R87 gives the zeros up to the return of the read, and no rule says what is played after it (DESIGN CHOICE,
notes/assumptions/38.md). -/
def execSlotOutputSample (n : SlotNo) (s : State) : Out :=
  match s.slotView n with
  | none => .next s
  | some (h, r, c) =>
    if r.state.sounds then
      let x := s.slots.get n
      let r := r.wrapTail c.length
      match x.tail, x.window with
      | some t, _ => .next (s.playTail n h r c t)
      | none, w :: ws => .next (s.playClip n h r c w ws)
      | none, [] => if x.fetchState = .running then .next s else .next (s.playGap n h r c)
    else .next s

/-! ## Going on air and ending (R74 to R76, R81, R88, R89) -/

/-- The late amount of a record that goes ON_AIR at `t` (R76): the scene time less the start reference. Where the reference lies after
`t`, the difference is negative and the spec gives no amount; this writes 0, so that no LATE_START is raised. It comes about when a
SET_TIME to a lower value meets an edge event on its way, which keeps its time (DESIGN CHOICE, notes/assumptions/52.md). -/
def Record.lateAt (r : Record) (t : Int) : Nat :=
  match r.startRef with
  | some f => (t - f).toNat
  | none => 0

/-- The record on going ON_AIR at `t` (R74, R76): the advance count and the accumulators start from 0. -/
def Record.onAirAt (r : Record) (t : Int) : Record :=
  { r with
    state := .onAir
    lateAmount := r.lateAt t
    advance := 0
    paths := r.paths.map fun p => { p with acc := 0 } }

/-- An entry goes ON_AIR (R74, R76): its start-time expiry is withdrawn, its late amount written, and LATE_START raised for a
late AT or trigger start. So it is also where a start-time expiry finds the primed report taken (R75): R75 gives a late amount of 0
there, which is R76's difference when the expiry is taken at T; where it is taken some ticks after T, the difference is written, and
LATE_START raised (DESIGN CHOICE, notes/assumptions/56.md). -/
def State.goOnAir (s : State) (h : EmitterHandle) : State :=
  match s.recordAt h with
  | none => s
  | some r =>
    let s := (s.withdraw fun e => e == .startTime h).putRecord h.slot (r.onAirAt s.now)
    if 0 < r.lateAt s.now ∧ r.startPoint ≠ some .now then s.raiseEmitter h .addLateStart else s

/-- Whether a primed report sends the entry ON_AIR at once: NOW, a trigger start, AT under LATE_OK, or a set start-time mark
(R74). -/
def Record.startsWhenPrimed (r : Record) : Bool :=
  match r.startPoint with
  | some (.at _) => r.takenLate || r.startMark
  | some .now | some (.on _) | none => true

/-- The controller's taking of a primed report (R74). -/
def State.takePrimed (s : State) (h : EmitterHandle) : State :=
  match s.recordAt h with
  | none => s
  | some r =>
    if r.state = .priming then
      if r.startsWhenPrimed then s.goOnAir h else s.putRecord h.slot { r with primedNoted := true }
    else s

/-- PRIMED_REPORT (R74). -/
def execPrimedReport (h : EmitterHandle) (s : State) : Out := s.onMessage (.primed h) fun s => s.takePrimed h

/-- The controller's taking of an end-of-clip report (R81). Where a change to LOOP has moved the play position while the report was
on its way, the spent record holds that position and not the clip length (DESIGN CHOICE, notes/assumptions/46.md). -/
def State.takeEndOfClip (s : State) (h : EmitterHandle) : State :=
  match s.recordAt h with
  | none => s
  | some r => if r.state.sounds then s.enterSpent h .endOfClip else s

/-- END_OF_CLIP_REPORT (R81). -/
def execEndOfClipReport (h : EmitterHandle) (s : State) : Out := s.onMessage (.endOfClip h) fun s => s.takeEndOfClip h

/-- The controller's taking of a recovered report (R88), in the states that hold a slot (R121). -/
def State.takeRecovered (s : State) (h : EmitterHandle) : State :=
  match s.recordAt h with
  | none => s
  | some r =>
    if r.state.holdsSlot then
      (s.putRecord h.slot { r with condition := .recovered }).raiseEmitter h .addRecovered
    else s

/-- RECOVERED_REPORT (R88). -/
def execRecoveredReport (h : EmitterHandle) (s : State) : Out := s.onMessage (.recovered h) fun s => s.takeRecovered h

/-- The controller's taking of a failure report (R89): the staged change is discarded, the slot released, the start-time
expiry withdrawn; the entry is FAULTED and MUTED, with FAULT attention. -/
def State.takeFailure (s : State) (h : EmitterHandle) : State :=
  match s.recordAt h with
  | none => s
  | some r =>
    if r.state.holdsSlot then
      let s := (s.withdrawChange h).releaseSlot h
      let s := s.withdraw fun e => e == .startTime h
      let s := s.putRecord h.slot { r with state := .faulted, condition := .muted, staged := none, ramp := none }
      s.raiseEmitter h .addFault
    else s

/-- FAILURE_REPORT (R89). -/
def execFailureReport (h : EmitterHandle) (s : State) : Out := s.onMessage (.failure h) fun s => s.takeFailure h

end Sys2Proof.Machine
end

