-- ==== Sys2Proof/Machine/Answers.lean ====
section
/-!
DEFINITION. How a request is taken by its owner and answered (R174 to R176), and how the checks of a request are written:
in order, the first failure being the block's status.
-/

namespace Sys2Proof.Machine

/-! ## Checks -/

/-- The outcome of checks: a refusal, or what the checks found. -/
abbrev Checked (α : Type) := Except Answer α

/-- A refusal whose result carries nothing of its own. -/
def Answer.refuse (c : Status) : Answer := ⟨c, .empty⟩

/-- A check that fails with a status. -/
def need (b : Bool) (c : Status) : Checked Unit := if b then .ok () else .error (.refuse c)

/-- A check that also finds something. -/
def want {α : Type} (o : Option α) (c : Status) : Checked α :=
  match o with
  | some a => .ok a
  | none => .error (.refuse c)

/-- A check at every port of a list; its refusal names the first port that fails (R13, R95). -/
def needPorts (ps : List Port) (ok : Port → Bool) (c : Status) : Checked Unit :=
  match ps.find? fun p => !ok p with
  | some p => .error ⟨c, .port p⟩
  | none => .ok ()

/-- The lane check of R9: L0 passes for every record. -/
def laneMay (acting lane : Lane) : Bool := acting == 0 || acting == lane

/-- The emitter handle of a request, through the slot range, the handle check and the lane check (R8, R9). -/
def State.findEmitter (s : State) (l : Lane) (raw : RawHandle) : Checked (EmitterHandle × Record) := do
  let h ← want raw.emitter .range
  let r ← want (s.recordAt h) .staleHandle
  need (laneMay l r.lane) .laneDenied
  return (h, r)

/-! ## Answers (R167, R174) -/

/-- The kinds that hold the unit (R175): LOAD_CLIP, CONFIGURE_PORT, RESTART_PORT. -/
def Request.holds : Request → Bool
  | .loadClip _ | .configurePort _ | .restartPort _ => true
  | .nop | .create _ | .start _ | .modify _ | .pause _ | .resume _ | .retire _ | .queryEmitter _ | .defineClip _
  | .retireClip _ | .queryClip _ | .defineFade _ | .retireFade _ | .setOutput _ | .queryPort _ | .scan _ | .flushLane _
  | .setLane _ | .setTime _ => false

/-- How many items of varying number a result carries; the free word counts of Config take it as an argument. -/
def Result.items : Result → Nat
  | .emitterImage img => img.paths.length + img.stagedMarks.length
  | .portImage img => img.members.length + img.reservations.length
  | .heads states => states.length
  | .silent _ states => states.length
  | .created _ (some _) => 1
  | .modified _ _ (some _) => 1
  | _ => 0

/-- How many words the result that a kind defines takes, with so many items of varying number: NOP and an unknown kind define
none, and neither does SET_LANE, which carries nothing (R178, R183); a SCAN that reports nothing has its continuation word
(R182); the rest is free (notes/assumptions/7.md). -/
def definedWords (kind items : Nat) : Nat :=
  if kind = 0 ∨ kind = 20 ∨ 21 < kind then 0 else if kind = 18 then 1 else Config.resultWords kind items

/-- How many words of a result an answer fills beyond what its kind defines: what a refusal names may reach further (R179). -/
def Answer.namedWords (a : Answer) (kind : Nat) : Nat :=
  match a.status, a.result with
  | .done, _ | _, .empty => 0
  | c, _ => Config.namedWords kind c.code

/-- How many result words an answer takes when nothing cuts it short. A block whose header gives impossible lengths has 0 words
(R173); ABORTED has 0 words, and 1 for a LOAD_CLIP (R172); DONE has the result its kind defines, and a refusal what it names,
with 0 in every other word up to the result the kind defines (R179). -/
def Answer.fullWords (a : Answer) (h : Header) : Nat :=
  if h.lengthsOk then
    match a.status, a.result with
    | .aborted, .copied _ => 1
    | .aborted, _ => 0
    | _, r => max (definedWords h.kind.toNat r.items) (a.namedWords h.kind.toNat)
  else 0

/-- The header of a unit's fetched block; a unit without one has an empty header. -/
def RequestUnit.header (u : RequestUnit) : Header :=
  match u.block with
  | some b => b.header
  | none => ⟨0, 0, 0, 0, 0⟩

/-- The address of a block's result area: behind the header and the request area (R167, 9.9). No rule says where it lies in a
block of L0 whose extent passes the top of the 64-bit addresses: there the address wraps (DESIGN CHOICE,
notes/assumptions/60.md). -/
def RequestUnit.resultArea (u : RequestUnit) : BitVec 64 := u.current + BitVec.ofNat 64 (16 + 8 * u.header.reqLen.toNat)

/-- The write of an answer into a lane's current block is issued, under the next transfer number (R167). -/
def State.issueWrite (s : State) (l : Lane) (a : Answer) (words : Nat) (truncated : Bool) : State :=
  let u := s.units.get l
  let w : HostWrite := ⟨s.nextTag, l, u.current, u.resultArea, a, words, truncated⟩
  { s with writes := s.writes ++ [w] }.bumpTag

/-- The completion write begins (R167, R176): the unit is WRITING with the answer. -/
def State.beginWrite (s : State) (l : Lane) (a : Answer) (words : Nat) (truncated : Bool) : State :=
  (s.setUnit l { s.units.get l with state := .active .writing, answer := some a, tag := s.nextTag }).issueWrite l a words
    truncated

/-- What a completion write puts into host memory, in its order (R167): the result words, the status code with the number of
result words, and last the completion byte. -/
def HostWrite.inOrder (w : HostWrite) : List Sent :=
  [.resultWrite w.lane w.resultArea w.answer.result w.words, .statusWrite w.lane (w.block + 0x0C) w.answer.status w.words,
    .completionWrite w.lane (w.block + 0x0F) w.truncated]

/-- The completion write in flight with a lane and a transfer number. -/
def State.writeOf (s : State) (l : Lane) (tag : Nat) : Option HostWrite :=
  s.writes.find? fun w => w.lane == l && w.tag == tag

/-- A completion write ends, having made the given number of its three writes. -/
def State.endWrite (s : State) (w : HostWrite) (made : Nat) : State :=
  { s with writes := s.writes.erase w, sent := s.sent ++ w.inOrder.take made }

/-- Whether an answer of so many words sets TRUNCATED in a block: where it is longer than the result area (R167), and never for
a SCAN, also one that is refused (R182). -/
def truncates (h : Header) (full : Nat) : Bool := h.resLen.toNat < full && h.kind != 18

/-- The unit writes an answer: as many whole words as the result area holds (R167). -/
def State.answer (s : State) (l : Lane) (a : Answer) : State :=
  let h := (s.units.get l).header
  let full := a.fullWords h
  s.beginWrite l a (min full h.resLen.toNat) (truncates h full)

/-- The unit enters HELD (R175). -/
def State.hold (s : State) (l : Lane) : State := s.setUnit l { s.units.get l with state := .active .held }

/-- The request that a lane's unit has handed to its owner (R174). -/
def State.handed (s : State) (l : Lane) : Option (Header × Request) :=
  let u := s.units.get l
  match u.state, u.block with
  | .active .handed, some b => b.area.map fun r => (b.header, r)
  | _, _ => none

/-- The owner takes the request that the lane has handed to it, with effect `f`; where that request is not the one handed,
or the flag that the kind reads is another, there is no such event (notes/assumptions/2.md). -/
def State.onRequest (s : State) (l : Lane) (r : Request) (flag : Header → Bool) (f : State → State) : Out :=
  match s.handed l with
  | some (h, x) => if x = r ∧ flag h = true ∧ s.walk = none then .next (f s) else .next s
  | none => .next s

/-- The kinds that read no flag (R168). -/
def anyFlag (_ : Header) : Bool := true

/-- A request whose checks refuse it is answered with the refusal; otherwise its effect gives the state and the answer. -/
def State.conclude {α : Type} (s : State) (l : Lane) (checks : Checked α) (effect : α → State × Answer) : State :=
  match checks with
  | .error a => s.answer l a
  | .ok x =>
    let (t, a) := effect x
    t.answer l a

/-- DONE with a result. -/
def Answer.done (r : Result) : Answer := ⟨.done, r⟩

end Sys2Proof.Machine
end

