-- ==== Sys2Proof/Machine/Emitters.lean ====
section
/-!
DEFINITION. The requests that make, start, pause, resume and query an emitter (R13 to R20, R48 to R53, R83, R84): CREATE,
START, PAUSE, RESUME, QUERY_EMITTER.
-/

namespace Sys2Proof.Machine

/-! ## Fields and placement (R13, R14) -/

/-- The form of a path list and a port set (R13, R95, step 1). -/
def pathCountOk (n : Nat) : Bool := 1 ≤ n && n ≤ 8

/-- Every fade of a path list names an accepted profile (R13, step 3). -/
def State.fadesKnown (s : State) (vs : List PathVals) : Bool :=
  vs.all fun v => match v.fade with
    | some x => (s.fadeAt x.profile).isSome
    | none => true

/-- Whether a profile may be named for records of a lane: its own lane's, or L0's; for L0 every one (R36). -/
def laneMayUse (lane owner : Lane) : Bool := lane == 0 || owner == lane || owner == 0

/-- The lane rights over the fades of a path list (R14, step 4; R96). -/
def State.fadesAllowed (s : State) (lane : Lane) (vs : List PathVals) : Bool :=
  vs.all fun v => match v.fade with
    | some x => match s.fadeAt x.profile with
      | some f => laneMayUse lane f.lane
      | none => true
    | none => true

/-- Every fade starting point index is less than the number of points of its profile (R14, step 7a). -/
def State.fadesPlaced (s : State) (vs : List PathVals) : Bool :=
  vs.all fun v => match v.fade with
    | some x => match s.fadeAt x.profile with
      | some f => x.index < f.curve.points.length
      | none => true
    | none => true

/-- The magnitude of a carrier offset is less than half the clip rate (R14, step 7a). -/
def carrierFits (carrier : Int) (rate : Nat) : Bool := 2 * carrier.natAbs < rate

/-- The loop end is at most the clip length (R14, step 7a). -/
def LoopMode.fits (m : LoopMode) (len : Nat) : Bool :=
  match m with
  | .once => true
  | .loop _ b => b ≤ len

/-- The start offset is less than the loop end (R14, step 7a). -/
def LoopMode.admits (m : LoopMode) (offset : Nat) : Bool :=
  match m with
  | .once => true
  | .loop _ b => offset < b

/-- Every delay is less than the clip length, and less than the loop length of a LOOP (R14, step 7b). -/
def delaysFit (m : LoopMode) (len : Nat) (vs : List PathVals) : Bool :=
  vs.all fun v => v.delay < len && (match m with
    | .once => true
    | .loop a b => v.delay < b - a)

/-- The cue sample, when there is one, is less than the clip length (R14, step 7a). -/
def cueFits (c : Option Cue) (len : Nat) : Bool :=
  match c with
  | some q => q.sample < len
  | none => true

/-! ## The entry that CREATE takes (R7, R16) -/

/-- The lowest-numbered FREE entry. -/
def State.freeEntryNo (s : State) : Option EntryNo := (List.finRange 96).find? fun i => (s.entries.get i).record.isNone

/-- The entry for a new record: the lowest FREE one, or the head of the spent list, which is then reclaimed (R16). -/
def State.chooseEntry (s : State) : Option (EntryNo × Option EmitterHandle) :=
  match s.freeEntryNo, s.spentList with
  | some i, _ => some (i, none)
  | none, h :: _ => some (h.slot, some h)
  | none, [] => none

/-! ## The start of a record (R18, R49 to R53) -/

/-- A record joins the grant queue at the end of the joining order (R69). -/
def State.joinQueue (s : State) (h : EmitterHandle) : State := { s with grantQueue := s.grantQueue ++ [h] }

/-- The start time of a record that is armed by time; 0 for any other. -/
def State.armTime (s : State) (h : EmitterHandle) : Nat :=
  match s.recordAt h with
  | some r => match r.startPoint with
    | some (.at t) => t.toNat
    | some .now | some (.on _) | none => 0
  | none => 0

/-- A record joins the time arm set, behind every record whose start time is not later (R50). -/
def State.joinArmSet (s : State) (h : EmitterHandle) : State :=
  let earlier := fun k => decide (s.armTime k ≤ s.armTime h)
  { s with armSet := s.armSet.takeWhile earlier ++ h :: s.armSet.dropWhile earlier }

/-- The record becomes WAITING with its start reference and joins the grant queue (R49, R51, R52, R61). -/
def State.becomeWaiting (s : State) (h : EmitterHandle) (startRef : Int) : State :=
  (s.modifyRecord h fun r => { r with state := .waiting, startRef := some startRef }).joinQueue h

/-- The record of a handle stands ARMED with the start point AT `time` (R50, R51). -/
def State.armedAt (s : State) (time : BitVec 64) (h : EmitterHandle) : Bool :=
  match s.recordAt h with
  | some r => r.state == .armed && r.startPoint == some (.at time)
  | none => false

/-- One record that a lead expiry covers (R51): it leaves the time arm set, becomes WAITING, and a start-time expiry at T is
asked for. -/
def State.leadRecord (s : State) (h : EmitterHandle) (time : BitVec 64) : State :=
  match s.recordAt h with
  | none => s
  | some r =>
    if r.state = .armed ∧ r.startPoint = some (.at time) then
      let s := { s with armSet := s.armSet.filter fun k => k != h }
      let s := s.withdraw fun e => e == .startLead h time
      (s.becomeWaiting h (ticks time)).request (.startTime h) (ticks time)
    else s

/-- The taking of a start lead for T (R51): it acts on every record of the time arm set whose start time is T, in the order of the
set. -/
def State.takeLead (s : State) (time : BitVec 64) : State := s.armSet.foldl (fun s h => s.leadRecord h time) s

/-- The START part of a START or of a CREATE with a start point (R49 to R53). A record
already inside the lead passes through ARMED, and the lead is taken within the START, for every record of its T (R50). -/
def State.beginStart (s : State) (h : EmitterHandle) (p : StartPoint) : State :=
  let s := s.modifyRecord h fun r => { r with startPoint := some p }
  match p with
  | .now => s.becomeWaiting h s.now
  | .on t =>
    let s := s.modifyRecord h fun r => { r with state := .armed }
    let x := s.triggers.get t
    s.setTrigger t { x with armList := x.armList ++ [h] }
  | .at t =>
    if ticks t ≤ s.now then
      (s.modifyRecord h fun r => { r with takenLate := true }).becomeWaiting h (ticks t)
    else
      let s := (s.modifyRecord h fun r => { r with state := .armed, startRef := some (ticks t) }).joinArmSet h
      if ticks t - Config.leadTicks ≤ s.now then s.takeLead t
      else s.request (.startLead h t) (ticks t - Config.leadTicks)

/-! ## CREATE -/

/-- What the checks of a CREATE find. -/
structure CreateFound where
  entry : EntryNo
  reclaimed : Option EmitterHandle
  loop : LoopMode
  stop : Option (BitVec 64)
  cue : Option Cue
  start : Option StartPoint
  deriving DecidableEq, Repr

/-- The form of a CREATE (R13, step 1). -/
def createForm (q : CreateReq) : Bool :=
  pathCountOk q.paths.length && q.ports != 0 && q.loop.mode.isSome && q.stop.kind.toNat ≤ 1 && q.cue.kind.toNat ≤ 1 &&
  q.start.wellEncoded

/-- An AT start point lies before the stop point, where both are present (R14, step 2). -/
def startBeforeStop (start : StartGiven) (stop : Option (BitVec 64)) : Bool :=
  match start, stop with
  | .at t, some u => t.toNat < u.toNat
  | _, _ => true

/-- The fixed ranges of a CREATE (R14, step 2). -/
def createRanges (q : CreateReq) : Bool :=
  q.priority ≤ 7 && q.paths.all (·.inRange) && q.loop.inRange && q.cue.inRange && q.start.given.inRange &&
  startBeforeStop q.start.given q.stop.change.value

/-- The lane rights of a CREATE (R14, step 4). -/
def State.createAllowed (s : State) (l : Lane) (q : CreateReq) (c : Clip) : Bool :=
  l == 0 ||
    (laneMayUse l c.lane && s.fadesAllowed l (q.paths.map (·.vals)) &&
      (portsOf q.ports).all (fun p => (s.ports.get p).owner == l) &&
      (match q.start.given.point with
       | some (.on t) => (s.triggers.get t).owner == l
       | some .now | some (.at _) | none => true))

/-- The start point is not already past, or LATE_OK excuses it (R15, R48). -/
def State.startInTime (s : State) (p : Option StartPoint) (lateOk : Bool) : Bool :=
  match p with
  | some (.at t) => lateOk || decide (s.now < ticks t)
  | some .now | some (.on _) | none => true

/-- A stop point is later than the count (R15, R95). -/
def State.stopInTime (s : State) (t : Option (BitVec 64)) : Bool :=
  match t with
  | some u => decide (s.now < ticks u)
  | none => true

/-- The checks of a CREATE, in the order of R13. -/
def State.checkCreate (s : State) (l : Lane) (q : CreateReq) (lateOk : Bool) : Checked CreateFound := do
  let vals := q.paths.map (·.vals)
  let ports := portsOf q.ports
  need (createForm q) .badRequest
  let loop ← want q.loop.mode .badRequest
  need (createRanges q) .range
  let c ← want (s.clipAt q.clip.clip) .staleHandle
  need (s.fadesKnown vals) .staleHandle
  need (s.createAllowed l q c) .laneDenied
  need (c.state == .ready) .clipNotReady
  needPorts ports (fun p => (s.ports.get p).head != .unfitted) .portUnfitted
  needPorts ports (fun p => s.portRate p == c.rate) .rateMismatch
  need (q.startOffset.toNat < c.length && loop.fits c.length && loop.admits q.startOffset.toNat &&
    cueFits q.cue.change.value c.length && carrierFits q.carrier.toInt c.rate && s.fadesPlaced vals) .range
  need (delaysFit loop c.length vals) .delayRange
  let (i, old) ← want s.chooseEntry .noEntry
  if s.poolFree < vals.length then .error ⟨.poolExhausted, .pool s.poolFree vals.length⟩
  needPorts ports (fun p => (s.ports.get p).members.length + (s.ports.get p).reservedJoins ≤ 15) .portFull
  needPorts ports (fun p => (s.ports.get p).committed + weightOf vals ≤ (s.ports.get p).budget) .headroom
  need (s.startInTime q.start.given.point lateOk && s.stopInTime q.stop.change.value) .tooLate
  return ⟨i, old, loop, q.stop.change.value, q.cue.change.value, q.start.given.point⟩

/-- A path record newly bound with values (R27, R35): its fade position set, its accumulator 0. -/
def State.bindPath (s : State) (v : PathVals) : Path := ⟨v, s.fadeEntry v, 0, none⟩

/-- A new record (R4): its fields from the request, its running fields at their first values. -/
def State.newRecord (s : State) (l : Lane) (q : CreateReq) (x : CreateFound) : Record where
  lane := l
  state := .staged
  clip := q.clip.clip
  priority := q.priority
  startOffset := q.startOffset.toNat
  loop := x.loop
  carrier := q.carrier.toInt
  ports := q.ports
  paths := q.paths.map fun p => s.bindPath p.vals
  startPoint := none
  stopPoint := x.stop
  cue := x.cue
  staged := none
  playPosition := q.startOffset.toNat
  passCount := 0
  cueCount := 0
  lateAmount := 0
  condition := .clean
  gapSamples := 0
  supersededCount := 0
  passedOver := 0
  attention := false
  causes := {}
  spent := none
  changeCounter := 0
  advance := 0
  startRef := none
  startMark := false
  primedNoted := false
  takenLate := false
  ramp := none

/-- The chosen entry is taken with its new generation, and holds the new record (R7, R16, R17). -/
def State.takeEntry (s : State) (x : CreateFound) (r : Record) : State :=
  let e := s.entries.get x.entry
  let s := s.setEntry x.entry ⟨takeGen e.gen e.unused, false, some r⟩
  { s with spentList := s.spentList.filter fun k => k.slot != x.entry }

/-- The effect of a CREATE that passes every check (R17, R18, R55). -/
def State.createEffect (s : State) (l : Lane) (q : CreateReq) (x : CreateFound) : State × Answer :=
  let e := s.entries.get x.entry
  let h : EmitterHandle := ⟨x.entry, takeGen e.gen e.unused⟩
  let r := s.newRecord l q x
  let s := s.takeEntry x r
  let s := s.takeReference r.clip
  let s := s.joinPorts (portsOf r.ports) h r.weight
  let s := match x.stop with
    | some t => s.request (.stopPoint h t) (ticks t)
    | none => s
  let s := match x.start with
    | some p => s.beginStart h p
    | none => s
  (s, .done (.created h x.reclaimed))

/-- CREATE (R13 to R18). -/
def execCreate (l : Lane) (q : CreateReq) (lateOk : Bool) (s : State) : Out :=
  s.onRequest l (.create q) (fun h => h.lateOk == lateOk) fun s =>
    s.conclude l (s.checkCreate l q lateOk) (s.createEffect l q)

/-! ## START -/

/-- The lane rights of a START or of an ON apply point over a trigger (R48, R96): L0 passes for every trigger. -/
def State.triggerAllowed (s : State) (l : Lane) (p : Option StartPoint) : Bool :=
  match p with
  | some (.on t) => laneMay l (s.triggers.get t).owner
  | some .now | some (.at _) | none => true

/-- The checks of a START (R48). -/
def State.checkStart (s : State) (l : Lane) (q : StartReq) (lateOk : Bool) : Checked (EmitterHandle × StartPoint) := do
  need (q.start.given != .absent && q.start.given != .malformed) .badRequest
  let p ← want q.start.given.point .range
  let (h, r) ← s.findEmitter l q.emitter
  need (s.triggerAllowed l (some p)) .laneDenied
  need (r.state == .staged) .wrongState
  need (startBeforeStop q.start.given r.stopPoint) .range
  need (s.startInTime (some p) lateOk) .tooLate
  return (h, p)

/-- The effect of a START that passes every check: the record is ARMED or WAITING (R48). -/
def State.startEffect (s : State) (x : EmitterHandle × StartPoint) : State × Answer :=
  let s := s.beginStart x.1 x.2
  let st := match s.recordAt x.1 with
    | some r => r.state
    | none => .waiting
  (s, .done (.started st))

/-- START (R48 to R53). -/
def execStart (l : Lane) (q : StartReq) (lateOk : Bool) (s : State) : Out :=
  s.onRequest l (.start q) (fun h => h.lateOk == lateOk) fun s =>
    s.conclude l (s.checkStart l q lateOk) s.startEffect

/-! ## PAUSE and RESUME (R83, R84) -/

/-- The checks of a PAUSE or RESUME, whose record must stand in the given state. -/
def State.checkPlaying (s : State) (l : Lane) (raw : RawHandle) (st : EmState) : Checked (EmitterHandle × Record) := do
  let (h, r) ← s.findEmitter l raw
  need (r.state == st) .wrongState
  return (h, r)

/-- The slot of a record that has stopped or changed its pace goes on reading ahead as R77 and R83 let it. -/
def State.refill (s : State) (h : EmitterHandle) : State :=
  match s.slotOf h with
  | some n => s.issueRun n
  | none => s

/-- The effect of an accepted PAUSE (R83). -/
def State.pauseEffect (s : State) (x : EmitterHandle × Record) : State × Answer :=
  ((s.putRecord x.1.slot { x.2 with state := .paused }).refill x.1, .done (.position x.2.playPosition))

/-- PAUSE (R83). -/
def execPause (l : Lane) (emitter : RawHandle) (s : State) : Out :=
  s.onRequest l (.pause emitter) anyFlag fun s => s.conclude l (s.checkPlaying l emitter .onAir) s.pauseEffect

/-- A slot whose ONCE tail has ended sends its end-of-clip report again (R80, R84). -/
def State.resendEnd (s : State) (h : EmitterHandle) : State :=
  match s.slotOf h with
  | some n => if (s.slots.get n).endFound then s.post (.endOfClip h) else s
  | none => s

/-- The effect of an accepted RESUME (R84). -/
def State.resumeEffect (s : State) (x : EmitterHandle × Record) : State × Answer :=
  ((s.putRecord x.1.slot { x.2 with state := .onAir }).resendEnd x.1, .done (.position x.2.playPosition))

/-- RESUME (R84). -/
def execResume (l : Lane) (emitter : RawHandle) (s : State) : Out :=
  s.onRequest l (.resume emitter) anyFlag fun s => s.conclude l (s.checkPlaying l emitter .paused) s.resumeEffect

/-! ## QUERY_EMITTER (R19, R20) -/

/-- The marks of a staged path list of `n` positions over a present list of `m` (R28, R109). -/
def stagedMarks (m n : Nat) : List StagedPosition :=
  List.replicate (min m n) .replaces ++ List.replicate (n - m) .added ++ List.replicate (m - n) .released

/-- The marks that a record's staged change has made on its path list. -/
def Record.marks (r : Record) : List StagedPosition :=
  match r.staged with
  | some c => match c.new.paths with
    | some vs => stagedMarks r.paths.length vs.length
    | none => []
  | none => []

/-- The image of a record (R2). -/
def State.emitterImage (s : State) (h : EmitterHandle) (r : Record) : EmitterImage where
  handle := h
  lane := r.lane
  state := r.state
  clip := r.clip
  priority := r.priority
  startOffset := r.startOffset
  loop := r.loop
  carrier := r.carrier
  ports := r.ports
  paths := r.paths.map fun p => ⟨p.vals, p.pos, s.pathGain p⟩
  startPoint := r.startPoint
  stopPoint := r.stopPoint
  cue := r.cue
  staged := r.staged
  stagedMarks := r.marks
  playPosition := r.playPosition
  passCount := r.passCount
  cueCount := r.cueCount
  lateAmount := r.lateAmount
  condition := r.condition
  gapSamples := r.gapSamples
  supersededCount := r.supersededCount
  passedOver := r.passedOver
  attention := r.attention
  causes := r.causes
  spent := r.spent

/-- The effect of a QUERY_EMITTER: the image as it stood, and then the clearing (R19, R20). -/
def State.queryEmitterEffect (s : State) (clear : Bool) (x : EmitterHandle × Record) : State × Answer :=
  let t := if clear then s.putRecord x.1.slot x.2.clearAttention else s
  (t, .done (.emitterImage (s.emitterImage x.1 x.2)))

/-- QUERY_EMITTER (R19, R20). -/
def execQueryEmitter (l : Lane) (emitter : RawHandle) (clear : Bool) (s : State) : Out :=
  s.onRequest l (.queryEmitter emitter) (fun h => h.clear == clear) fun s =>
    s.conclude l (s.findEmitter l emitter) (s.queryEmitterEffect clear)

end Sys2Proof.Machine
end

