-- ==== Sys2Proof/Machine/Changes.lean ====
section
/-!
DEFINITION. Staged changes (chapter 5): MODIFY with its supersession and staging (R93 to R101), the apply (R29, R82, R102 to
R104), and the apply expiries AT_APPLY_EXPIRY and NEXT_FRAME_APPLY_EXPIRY (R105).
-/

namespace Sys2Proof.Machine

/-! ## The new values of a MODIFY (R93, R94) -/

/-- The new values that a request carries, with the loop already read. -/
def newValues (q : ModifyReq) (loop : Option LoopMode) : NewValues where
  paths := q.paths.map fun ps => ps.map (·.vals)
  carrier := q.carrier.map (·.toInt)
  ports := q.ports
  loop := loop
  stop := q.stop.change
  cue := q.cue.change

/-- The path values after a change. -/
def NewValues.pathsAfter (v : NewValues) (r : Record) : List PathVals := v.paths.getD r.pathVals

/-- The loop after a change. -/
def NewValues.loopAfter (v : NewValues) (r : Record) : LoopMode := v.loop.getD r.loop

/-- The carrier offset after a change. -/
def NewValues.carrierAfter (v : NewValues) (r : Record) : Int := v.carrier.getD r.carrier

/-- The new port set (R93). -/
def NewValues.portsAfter (v : NewValues) (r : Record) : BitVec 8 := v.ports.getD r.ports

/-- The new weight (R93). -/
def NewValues.weightAfter (v : NewValues) (r : Record) : Nat := weightOf (v.pathsAfter r)

/-- The ports that a change joins (R95). -/
def NewValues.joins (v : NewValues) (r : Record) : List Port :=
  (portsOf (v.portsAfter r)).filter fun p => !r.ports.getLsbD p.val

/-- The increase that a change makes at a port of the new port set (R97, R99). -/
def NewValues.increase (v : NewValues) (r : Record) (p : Port) : Nat :=
  if r.ports.getLsbD p.val then v.weightAfter r - r.weight else v.weightAfter r

/-- A port of both sets with a new weight that is not the greater passes without a test of its budget; a port that the change joins
is tested whatever the new weight (R97, step 10). -/
def NewValues.keepsWithin (v : NewValues) (r : Record) (p : Port) : Bool :=
  r.ports.getLsbD p.val && v.weightAfter r ≤ r.weight

/-- The pool records that a change must reserve (R28, R97). -/
def NewValues.extraPaths (v : NewValues) (r : Record) : Nat :=
  match v.paths with
  | some ps => ps.length - r.paths.length
  | none => 0

/-! ## The apply (R102 to R104) -/

/-- A bound record takes the values of its staged image (R29): the fade position is kept when the fade is the same; the
rotation accumulator is kept (R35). -/
def State.rebindPath (s : State) (p : Path) (v : PathVals) : Path :=
  { p with vals := v, pos := if v.fade = p.vals.fade then p.pos else s.fadeEntry v }

/-- The path list after the apply of a new one (R29): images taken, further positions bound, missing ones released. -/
def State.replacePaths (s : State) : List Path → List PathVals → List Path
  | _, [] => []
  | [], v :: vs => s.bindPath v :: s.replacePaths [] vs
  | p :: ps, v :: vs => s.rebindPath p v :: s.replacePaths ps vs

/-- The record with its new values (R102, steps 2 to 5), and no staged change (step 7). -/
def State.changedRecord (s : State) (r : Record) (v : NewValues) : Record :=
  { r with
    paths := match v.paths with
      | some vs => s.replacePaths r.paths vs
      | none => r.paths
    carrier := v.carrierAfter r
    loop := v.loopAfter r
    cue := v.cue.apply r.cue
    stopPoint := v.stop.apply r.stopPoint
    ports := v.portsAfter r
    staged := none }

/-- The timer is told of a new or removed stop point (R55, R104). -/
def State.changeStop (s : State) (h : EmitterHandle) (c : FieldChange (BitVec 64)) : State :=
  match c with
  | .keep => s
  | .remove => s.withdraw fun e => e.isStopOf h
  | .set t => (s.withdraw fun e => e.isStopOf h).request (.stopPoint h t) (ticks t)

/-- The ports of the present and the new port set are told, in ascending order (R103). -/
def State.changePorts (s : State) (h : EmitterHandle) (old new : BitVec 8) (weight : Nat) : State :=
  (List.finRange 8).foldl (fun s p =>
    match old.getLsbD p.val, new.getLsbD p.val with
    | false, true => s.joinPort p h weight
    | true, true => s.weighPort p h weight
    | true, false => s.leavePort p h
    | false, false => s) s

/-- The part of a window that the new order plays next, and the position after it (R82). -/
def keptWindow (m : LoopMode) (len : Nat) : Nat → List WindowSample → List WindowSample × Nat
  | p, [] => ([], p)
  | p, w :: ws =>
    if w.pos = p then
      let k := keptWindow m len (m.after len p) ws
      (w :: k.1, k.2)
    else ([], p)

/-- Whether a run is the next run of an order that stands at `p` (R82; notes/assumptions/18.md). -/
def Run.isNext (run : Run) (m : LoopMode) (len p : Nat) : Bool := run.start == p && run.start + run.len ≤ m.seqEnd len p

/-- A slot takes over a new loop (R82). A change to LOOP during the tail makes the tail mark absent; it is set aside until a clip
sample is played, and where a change back to ONCE comes before that, the position still standing at the clip length, the tail
goes on with its mark, so that zeros continue the played sequence (R32; DESIGN CHOICE, notes/assumptions/41.md). -/
def StreamSlot.reorder (x : StreamSlot) (r : Record) (len : Nat) : StreamSlot :=
  let k := keptWindow r.loop len (r.loop.resumeAt len r.playPosition) x.window
  let keepsRun := fun (run : Run) => run.isNext r.loop len k.2
  let lostFailed := match x.failed with
    | some run => !keepsRun run
    | none => false
  let kept := match x.tail with
    | some t => some (t, x.endFound)
    | none => x.heldTail
  let inTail := r.loop = .once ∧ len ≤ r.playPosition
  { x with
    window := k.1
    nextPos := k.2
    fetch := x.fetch.map fun f => { f with discarded := f.discarded || !keepsRun f.run }
    failed := x.failed.filter keepsRun
    fetchState := if lostFailed then .running else x.fetchState
    tail := if inTail then kept.map (·.1) else none
    endFound := if inTail then (kept.map (·.2)).getD false else false
    heldTail := if r.loop = .once then none else kept }

/-- The end of a tail moves with the longest delay (R80): an end already found stands only while the played zeros still
outlast it. -/
def StreamSlot.moveEnd (x : StreamSlot) (r : Record) : StreamSlot :=
  match x.tail with
  | some t => { x with endFound := x.endFound && decide (t + r.longestDelay + 1 < r.advance) }
  | none => x

/-- The slot of a changed record is handed its new loop and longest delay (R82, R102, step 6). A read that the new order
discards stays in flight until it arrives, and no other is issued before then (R77). -/
def State.handSlot (s : State) (h : EmitterHandle) (loopCarried : Bool) : State :=
  match s.slotOf h with
  | none => s
  | some n =>
    match s.slotView n with
    | none => s
    | some (_, r, c) =>
      let x := s.slots.get n
      let s := s.setSlot n ((if loopCarried then x.reorder r c.length else x).moveEnd r)
      (s.checkPrimed n).issueRun n

/-- A change's values are applied to the record of an accepted handle (R102, steps 2 to 7). -/
def State.applyValues (s : State) (h : EmitterHandle) (v : NewValues) : State :=
  match s.recordAt h with
  | none => s
  | some r =>
    let s := s.putRecord h.slot (s.changedRecord r v)
    let s := s.changeStop h v.stop
    let s := s.changePorts h r.ports (v.portsAfter r) (v.weightAfter r)
    s.handSlot h v.loop.isSome

/-- The staged change of a record is applied (R102). -/
def State.applyStaged (s : State) (h : EmitterHandle) : State :=
  match s.recordAt h with
  | none => s
  | some r =>
    match r.staged with
    | none => s
    | some c => (s.leaveApplyPlace h c).applyValues h c.new

/-! ## Checking a MODIFY (R95 to R97) -/

/-- What the checks of a MODIFY find. -/
structure ModifyFound where
  handle : EmitterHandle
  record : Record
  values : NewValues
  apply : Option ApplyPoint
  deriving DecidableEq, Repr

/-- Whether a MODIFY carries at least one modifiable field (R93). -/
def modifyCarries (q : ModifyReq) : Bool :=
  q.paths.isSome || q.carrier.isSome || q.ports.isSome || q.loop.isSome || q.stop.kind != 0 || q.cue.kind != 0

/-- The form of a MODIFY (R95, step 1). -/
def modifyForm (q : ModifyReq) : Bool :=
  modifyCarries q && !q.unmodifiable && q.apply != .unknown &&
  (match q.paths with
   | some ps => pathCountOk ps.length
   | none => true) &&
  q.ports != some 0 && q.loop != some .unknown

/-- The apply point, `some none` for NOW; none when its trigger is not one of T0 to T7 (R95, step 2). -/
def applyPointOf (a : ApplyField) : Option (Option ApplyPoint) :=
  match a with
  | .now => some none
  | .nextFrame => some (some .nextFrame)
  | .at t => some (some (.at t))
  | .on b => (eight b).map fun t => some (.on t)
  | .unknown => none

/-- A stop point carried by a change with an AT apply point is later than the apply time (R95, step 2). -/
def stopAfterApply (q : ModifyReq) : Bool :=
  match q.apply, q.stop.change with
  | .at t, .set u => t.toNat < u.toNat
  | _, _ => true

/-- The fixed ranges of a MODIFY (R95, step 2). -/
def modifyRanges (q : ModifyReq) : Bool :=
  (q.paths.getD []).all (·.inRange) &&
  (match q.loop with
   | some f => f.inRange
   | none => true) &&
  q.cue.inRange && stopAfterApply q

/-- The trigger of an ON apply point, checked as that of an ON start point is (R96, step 4). -/
def State.applyAllowed (s : State) (l : Lane) (a : Option ApplyPoint) : Bool :=
  match a with
  | some (.on t) => laneMay l (s.triggers.get t).owner
  | some .nextFrame | some (.at _) | none => true

/-- A new stop point is later than the record's AT start time (R96, step 7a). -/
def stopAfterStart (r : Record) (v : NewValues) : Bool :=
  match r.startPoint, v.stop with
  | some (.at t), .set u => t.toNat < u.toNat
  | _, _ => true

/-- Placement against the clip, the profiles and the start point (R96, step 7a). -/
def State.modifyPlaced (s : State) (r : Record) (c : Clip) (v : NewValues) : Bool :=
  (match v.loop with
   | some m => m.fits c.length
   | none => true) &&
  cueFits v.cue.value c.length && carrierFits (v.carrierAfter r) c.rate && s.fadesPlaced (v.paths.getD []) &&
  stopAfterStart r v

/-- The AT apply point and the carried stop point are later than the count (R95, step 11). -/
def State.modifyInTime (s : State) (a : Option ApplyPoint) (v : NewValues) : Bool :=
  (match a with
   | some (.at t) => decide (s.now < ticks t)
   | some .nextFrame | some (.on _) | none => true) &&
  s.stopInTime v.stop.value

/-- The checks of a MODIFY, in the order of R95. The figures of steps 8 to 10 are those of the state with the present staged
change withdrawn (R97). -/
def State.checkModify (s : State) (l : Lane) (q : ModifyReq) : Checked ModifyFound := do
  need (modifyForm q) .badRequest
  let a ← want (applyPointOf q.apply) .range
  need (modifyRanges q) .range
  let h ← want q.emitter.emitter .range
  let v := newValues q (q.loop.bind (·.mode))
  let vals := v.paths.getD []
  let r ← want (s.recordAt h) .staleHandle
  need (s.fadesKnown vals) .staleHandle
  let joined := v.joins r
  need (laneMay l r.lane && s.applyAllowed l a && s.fadesAllowed r.lane vals &&
    joined.all fun p => r.lane == 0 || (s.ports.get p).owner == r.lane) .laneDenied
  need r.state.isLive .wrongState
  let c ← want (s.clipAt r.clip) .staleHandle
  needPorts joined (fun p => (s.ports.get p).head != .unfitted) .portUnfitted
  needPorts joined (fun p => s.portRate p == c.rate) .rateMismatch
  need (s.modifyPlaced r c v) .range
  need (delaysFit (v.loopAfter r) c.length (v.pathsAfter r)) .delayRange
  let w := s.withdrawChange h
  if w.poolFree < v.extraPaths r then .error ⟨.poolExhausted, .pool w.poolFree (v.extraPaths r)⟩
  needPorts joined (fun p => (w.ports.get p).members.length + (w.ports.get p).reservedJoins ≤ 15) .portFull
  needPorts (portsOf (v.portsAfter r)) (fun p => v.keepsWithin r p ||
    (w.ports.get p).committed + v.increase r p ≤ (w.ports.get p).budget) .headroom
  need (s.modifyInTime a v) .tooLate
  return ⟨h, r, v, a⟩

/-! ## Taking a MODIFY (R98 to R101) -/

/-- The change counter raised by one, from 65,535 to 1 (R94). -/
def nextChange (n : Nat) : Nat := if n < 65535 then n + 1 else 1

/-- Supersession (R98, step 2). -/
def State.supersede (s : State) (h : EmitterHandle) : State :=
  match s.recordAt h with
  | none => s
  | some r =>
    if r.staged.isSome then
      ((s.withdrawChange h).modifyRecord h fun k =>
        { k with supersededCount := satSucc 65535 k.supersededCount }).raiseEmitter h .addSuperseded
    else s

/-- The claims of a staged change, in ascending port order (R99). -/
def NewValues.claims (v : NewValues) (r : Record) : List PortReservation :=
  (portsOf (v.portsAfter r)).filterMap fun p =>
    let join := !r.ports.getLsbD p.val
    let n := v.increase r p
    if join || 0 < n then some ⟨p, join, n⟩ else none

/-- The claims are sent to their ports (R99). -/
def State.claimPorts (s : State) (h : EmitterHandle) (cs : List PortReservation) : State :=
  cs.foldl (fun s x => s.claimPort x.port h x.join x.increase) s

/-- A staged change is placed where its apply point holds it (R101). -/
def State.placeChange (s : State) (h : EmitterHandle) (number : Nat) (a : ApplyPoint) : State :=
  match a with
  | .nextFrame => s.request (.nextFrameApply h number) (nextBoundary s.now)
  | .at t => s.request (.atApply h number) (ticks t)
  | .on t =>
    let x := s.triggers.get t
    s.setTrigger t { x with applyList := x.applyList ++ [h] }

/-- The staged-change record (R94). -/
def State.stagedRecord (s : State) (x : ModifyFound) (number : Nat) (a : ApplyPoint) : Change where
  number := number
  apply := a
  stagedAt := s.sceneTime
  new := x.values
  pathReservation := x.values.extraPaths x.record
  portReservations := x.values.claims x.record

/-- Staging (R98, step 4). -/
def State.stageChange (s : State) (h : EmitterHandle) (c : Change) : State :=
  let s := s.modifyRecord h fun r => { r with staged := some c }
  (s.claimPorts h c.portReservations).placeChange h c.number c.apply

/-- The effect of a MODIFY that passes every check (R98). -/
def State.modifyEffect (s : State) (x : ModifyFound) : State × Answer :=
  let number := nextChange x.record.changeCounter
  let old := x.record.staged.map (·.number)
  let s := s.modifyRecord x.handle fun r => { r with changeCounter := number }
  let s := s.supersede x.handle
  match x.apply with
  | none => (s.applyValues x.handle x.values, .done (.modified number .applied old))
  | some a => (s.stageChange x.handle (s.stagedRecord x number a), .done (.modified number .staged old))

/-- MODIFY (R93 to R101); a LATE_OK flag on it is disregarded. -/
def execModify (l : Lane) (q : ModifyReq) (s : State) : Out :=
  s.onRequest l (.modify q) anyFlag fun s => s.conclude l (s.checkModify l q) s.modifyEffect

/-! ## Apply expiries (R105) -/

/-- Whether an apply point is of the AT kind. -/
def ApplyPoint.isAt : ApplyPoint → Bool
  | .at _ => true
  | .nextFrame | .on _ => false

/-- Whether an apply point is NEXT_FRAME. -/
def ApplyPoint.isNextFrame : ApplyPoint → Bool
  | .nextFrame => true
  | .at _ | .on _ => false

/-- The controller's taking of an apply expiry (R105): the staged change is applied if it has the expiry's number and an
apply point of the expiry's kind. -/
def State.takeApply (s : State) (h : EmitterHandle) (number : Nat) (kind : ApplyPoint → Bool) : State :=
  match s.recordAt h with
  | none => s
  | some r =>
    match r.staged with
    | some c => if c.number = number ∧ kind c.apply = true ∧ r.state.isLive = true then s.applyStaged h else s
    | none => s

/-- AT_APPLY_EXPIRY (R105). -/
def execAtApplyExpiry (h : EmitterHandle) (number : Nat) (s : State) : Out :=
  s.onMessage (.expiry (.atApply h number)) fun s => s.takeApply h number ApplyPoint.isAt

/-- NEXT_FRAME_APPLY_EXPIRY (R105). -/
def execNextFrameApplyExpiry (h : EmitterHandle) (number : Nat) (s : State) : Out :=
  s.onMessage (.expiry (.nextFrameApply h number)) fun s => s.takeApply h number ApplyPoint.isNextFrame

end Sys2Proof.Machine
end

