-- ==== Sys2Proof/Machine/Retire.lean ====
section
/-!
DEFINITION. Retirement and flushes (chapter 6) and the spent interval (R21, R22): RETIRE, FLUSH_LANE, RAMP_END_EXPIRY,
STOP_POINT_EXPIRY, SPENT_EXPIRY.
-/

namespace Sys2Proof.Machine

/-- The outcome of a RETIRE by state and ramp (R112): none is WRONG_STATE, `some none` is FADING, and a cause is SPENT. -/
def retireOutcome (st : EmState) (ramp : Nat) : Option (Option SpentCause) :=
  match st with
  | .staged | .armed | .waiting | .priming | .paused => some (some .retired)
  | .onAir => if ramp = 0 then some (some .retired) else some none
  | .fading => if ramp = 0 then some (some .retired) else none
  | .faulted => some (some .faultRetired)
  | .spent => none

/-- What the checks of a RETIRE find. -/
structure RetireFound where
  handle : EmitterHandle
  record : Record
  outcome : Option SpentCause
  deriving DecidableEq, Repr

/-- The checks of a RETIRE (R111, R112). -/
def State.checkRetire (s : State) (l : Lane) (q : RetireReq) : Checked RetireFound := do
  let _ ← want q.emitter.emitter .range
  need (q.ramp ≤ 5000) .range
  let (h, r) ← s.findEmitter l q.emitter
  let o ← want (retireOutcome r.state q.ramp) .wrongState
  return ⟨h, r, o⟩

/-- The move to FADING (R113). -/
def State.beginFade (s : State) (h : EmitterHandle) (ramp : Nat) : State :=
  let s := s.withdrawChange h
  let length : Int := ramp * 10000
  let stop := s.now + length
  let s := s.modifyRecord h fun r => { r with state := .fading, ramp := some ⟨length, stop⟩ }
  s.request (.rampEnd h) stop

/-- The effect of a RETIRE that passes every check (R111 to R113). -/
def State.retireEffect (s : State) (ramp : Nat) (x : RetireFound) : State × Answer :=
  match x.outcome with
  | some cause => (s.enterSpent x.handle cause, .done (.spent cause x.record.playPosition))
  | none => (s.beginFade x.handle ramp, .done (.fading (s.now + ramp * 10000)))

/-- RETIRE (R111 to R113). -/
def execRetire (l : Lane) (q : RetireReq) (s : State) : Out :=
  s.onRequest l (.retire q) anyFlag fun s => s.conclude l (s.checkRetire l q) (s.retireEffect q.ramp)

/-- The checks of a FLUSH_LANE (R123). -/
def checkFlush (l : Lane) (lane : BitVec 8) : Checked Lane := do
  let target ← want (four lane) .range
  need (laneMay l target) .laneDenied
  return target

/-- The effect of a FLUSH_LANE (R123). -/
def State.flushEffect (s : State) (target : Lane) : State × Answer :=
  (s.flushWhere fun r => r.lane == target, .done (.flushed (s.countWhere fun r => r.lane == target)))

/-- FLUSH_LANE (R123, R124). -/
def execFlushLane (l : Lane) (lane : BitVec 8) (s : State) : Out :=
  s.onRequest l (.flushLane lane) anyFlag fun s => s.conclude l (checkFlush l lane) s.flushEffect

/-- The controller's taking of a ramp-end expiry (R115). -/
def State.takeRampEnd (s : State) (h : EmitterHandle) : State :=
  match s.recordAt h with
  | none => s
  | some r => if r.state = .fading then s.enterSpent h .retired else s

/-- RAMP_END_EXPIRY (R115). -/
def execRampEndExpiry (h : EmitterHandle) (s : State) : Out := s.onMessage (.expiry (.rampEnd h)) fun s => s.takeRampEnd h

/-- The controller's taking of a stop-point expiry (R56); one whose time is not the record's present stop time is dropped
(R104). -/
def State.takeStopPoint (s : State) (h : EmitterHandle) (time : BitVec 64) : State :=
  match s.recordAt h with
  | none => s
  | some r =>
    if r.stopPoint = some time then
      match r.state with
      | .staged => s.putRecord h.slot { r with stopPoint := none }
      | .armed | .waiting | .priming | .onAir | .paused | .fading => s.enterSpent h .stopPoint
      | .faulted | .spent => s
    else s

/-- STOP_POINT_EXPIRY (R56, R104). -/
def execStopPointExpiry (h : EmitterHandle) (time : BitVec 64) (s : State) : Out :=
  s.onMessage (.expiry (.stopPoint h time)) fun s => s.takeStopPoint h time

/-- The controller's taking of a spent expiry (R22). -/
def State.takeSpentExpiry (s : State) (h : EmitterHandle) : State :=
  match s.recordAt h with
  | none => s
  | some r => if r.state = .spent then s.freeEntry h else s

/-- SPENT_EXPIRY (R22). -/
def execSpentExpiry (h : EmitterHandle) (s : State) : Out := s.onMessage (.expiry (.spent h)) fun s => s.takeSpentExpiry h

end Sys2Proof.Machine
end

