-- ==== Sys2Proof/Machine/Fades.lean ====
section
/-!
DEFINITION. The fade profile table (R36 to R42): DEFINE_FADE, RETIRE_FADE, FADE_REPLACEMENT_EXPIRY.
-/

namespace Sys2Proof.Machine

/-- The mode that a request gives, when it is known. -/
def fadeModeOf : FadeModeField → Option FadeMode
  | .once => some .once
  | .cycle => some .cycle
  | .unknown => none

/-- The curve of a DEFINE_FADE, through its form and its ranges (R39, steps 1 and 2). -/
def checkCurve (q : DefineFadeReq) : Checked FadeCurve := do
  need (2 ≤ q.points.length && q.points.length ≤ 64) .badRequest
  let m ← want (fadeModeOf q.mode) .badRequest
  need (q.points.all (· ≤ 1024) && 1 ≤ q.step && q.step ≤ 1000) .range
  return ⟨q.points, q.step, m⟩

/-- A profile handle that a request replaces or retires: the slot range, the handle, the lane rights (R36). -/
def State.findFade (s : State) (l : Lane) (raw : RawHandle) : Checked (FadeHandle × FadeProfile) := do
  let f ← want raw.fade .range
  let p ← want (s.fadeAt f) .staleHandle
  need (laneMay l p.lane) .laneDenied
  return (f, p)

/-- The lowest-numbered EMPTY profile slot. -/
def State.freeFade (s : State) : Option FadeNo := (List.finRange 16).find? fun i => (s.fades.get i).profile.isNone

/-- What a DEFINE_FADE defines or replaces. -/
inductive FadeTarget where
  | define (slot : FadeNo)
  | replace (h : FadeHandle) (p : FadeProfile)
  deriving DecidableEq, Repr

/-- The checks of a DEFINE_FADE (R39, R40). -/
def State.checkDefineFade (s : State) (l : Lane) (q : DefineFadeReq) : Checked (FadeCurve × FadeTarget) := do
  let c ← checkCurve q
  match q.profile with
  | none => do
    let i ← want s.freeFade .noEntry
    return (c, .define i)
  | some raw => do
    let (f, p) ← s.findFade l raw
    return (c, .replace f p)

/-- The profile of a slot changes; its generation and mark stay. -/
def State.putFade (s : State) (i : FadeNo) (p : Option FadeProfile) : State :=
  s.setFade i { s.fades.get i with profile := p }

/-- A replacement of a used profile waits for the next frame boundary; one expiry is outstanding for a handle (R40). -/
def State.deferFade (s : State) (f : FadeHandle) (p : FadeProfile) (c : FadeCurve) : State :=
  let t := s.putFade f.slot (some { p with replacement := some c })
  if s.outstanding (.fadeReplacement f) then t else t.request (.fadeReplacement f) (nextBoundary s.now)

/-- The effect of a DEFINE_FADE (R39, R40). -/
def State.defineFadeEffect (s : State) (l : Lane) (x : FadeCurve × FadeTarget) : State × Answer :=
  match x.2 with
  | .define i =>
    let e := s.fades.get i
    let g := takeGen e.gen e.unused
    (s.setFade i ⟨g, false, some ⟨l, x.1, none⟩⟩, .done (.fade ⟨i, g⟩ .immediate 0))
  | .replace f p =>
    let n := s.fadeUses f
    if n = 0 then (s.putFade f.slot (some { p with curve := x.1, replacement := none }), .done (.fade f .immediate 0))
    else (s.deferFade f p x.1, .done (.fade f .pending n))

/-- DEFINE_FADE (R39, R40). -/
def execDefineFade (l : Lane) (q : DefineFadeReq) (s : State) : Out :=
  s.onRequest l (.defineFade q) anyFlag fun s => s.conclude l (s.checkDefineFade l q) (s.defineFadeEffect l)

/-- The checks of a RETIRE_FADE (R41). -/
def State.checkRetireFade (s : State) (l : Lane) (raw : RawHandle) : Checked FadeHandle := do
  let (f, _) ← s.findFade l raw
  if 0 < s.fadeUses f then .error ⟨.inUse, .uses (s.fadeUses f)⟩
  return f

/-- The effect of a RETIRE_FADE: the slot is EMPTY, its generation kept (R41). -/
def State.retireFadeEffect (s : State) (f : FadeHandle) : State × Answer := (s.putFade f.slot none, .done (.uses 0))

/-- RETIRE_FADE (R41). -/
def execRetireFade (l : Lane) (profile : RawHandle) (s : State) : Out :=
  s.onRequest l (.retireFade profile) anyFlag fun s => s.conclude l (s.checkRetireFade l profile) s.retireFadeEffect

/-- A path that names a replaced profile has its position moved: the index modulo the new number of points, the elapsed
time 0 (R40). -/
def Path.moveFade (p : Path) (f : FadeHandle) (points : Nat) : Path :=
  if p.vals.names f then { p with pos := p.pos.map fun x => ⟨x.index % points, 0⟩ } else p

/-- Every record in a holding state has the positions that name the profile moved (R40). -/
def Entry.moveFades (e : Entry) (f : FadeHandle) (points : Nat) : Entry :=
  { e with record := e.record.map fun r =>
      if r.state.isHolding then { r with paths := r.paths.map fun p => p.moveFade f points } else r }

/-- The taking of a replacement expiry (R40). -/
def State.takeReplacement (s : State) (f : FadeHandle) : State :=
  match s.fadeAt f with
  | none => s
  | some p =>
    match p.replacement with
    | none => s
    | some c =>
      let s := s.putFade f.slot (some { p with curve := c, replacement := none })
      { s with entries := s.entries.map fun e => e.moveFades f c.points.length }

/-- FADE_REPLACEMENT_EXPIRY (R40). -/
def execFadeReplacementExpiry (h : FadeHandle) (s : State) : Out :=
  s.onMessage (.expiry (.fadeReplacement h)) fun s => s.takeReplacement h

end Sys2Proof.Machine
end

