-- ==== Sys2Proof/Machine/Time.lean ====
section
/-!
DEFINITION. The scene timer's own request and the expiries of an AT start (R46, R47, R51, R75): SET_TIME,
START_LEAD_EXPIRY, START_TIME_EXPIRY.
-/

namespace Sys2Proof.Machine

/-! ## SET_TIME -/

/-- The pending expiries that a test names. -/
def State.countPending (s : State) (sel : Expiry → Bool) : Nat := (s.timer.filter fun x => sel x.kind).length

def Expiry.isStartTime : Expiry → Bool
  | .startTime _ => true
  | _ => false

def Expiry.isAtApply : Expiry → Bool
  | .atApply _ _ => true
  | _ => false

def Expiry.isStopPoint : Expiry → Bool
  | .stopPoint _ _ => true
  | _ => false

/-- The four counts that an IN_USE of SET_TIME carries (R46). -/
def State.absoluteCounts (s : State) : Result :=
  .absolute s.armSet.length (s.countPending (·.isStartTime)) (s.countPending (·.isAtApply)) (s.countPending (·.isStopPoint))

/-- The checks of a SET_TIME (R46). Step 3 asks what the timer holds: an absolute item that has been raised and not yet taken no longer
counts, so a SET_TIME may be accepted while a start lead is on its way and its record stands in the time arm set (DESIGN CHOICE,
notes/assumptions/48.md). -/
def State.checkSetTime (s : State) (l : Lane) : Checked Unit := do
  need (l == 0) .laneDenied
  if s.timer.any fun x => x.kind.isAbsolute then .error ⟨.inUse, s.absoluteCounts⟩
  return ()

/-- A pending expiry across a jump by `d` to the new count (R47). -/
def PendingExpiry.jump (x : PendingExpiry) (d new : Int) : PendingExpiry :=
  if x.kind.isFrameBound then { x with due := nextBoundary new }
  else if x.kind.isAbsolute then x
  else { x with due := x.due + d }

/-- A record across a jump by `d` (R47, R113): the start reference of a WAITING or PRIMING record without a start-time
expiry, and the ramp end of a FADING one. -/
def Record.jump (r : Record) (holdsStartTime : Bool) (d : Int) : Record :=
  match r.state with
  | .waiting | .priming => if holdsStartTime then r else { r with startRef := r.startRef.map (· + d) }
  | .fading => { r with ramp := r.ramp.map fun x => { x with stop := x.stop + d } }
  | .staged | .armed | .onAir | .paused | .faulted | .spent => r

/-- Whether the timer holds a start-time expiry for a handle; one that has been raised and not yet taken is not held
(notes/assumptions/48.md). -/
def State.holdsStartTime (s : State) (h : EmitterHandle) : Bool := s.timer.any fun x => x.kind == .startTime h

/-- The record of entry `i` is carried across a jump. -/
def State.jumpEntry (s : State) (d : Int) (i : EntryNo) : State :=
  match (s.entries.get i).record, s.handleAt i with
  | some r, some h => s.putRecord i (r.jump (s.holdsStartTime h) d)
  | _, _ => s

/-- A cue line across a jump (R47). -/
def CueState.jump (c : CueState) (d : Int) : CueState :=
  match c with
  | .idle => .idle
  | .pulsing t => .pulsing (t + d)

/-- The count takes a new value, and every duration is carried across the jump (R46, R47). An edge event and a cue crossing report
that are on their way keep the scene time that they carry: R47 names neither. A candidate that has been held for its qualification
time, but whose TRIGGER_QUALIFIED has not been commanded (notes/assumptions/5.md), is still present: it moves by D as every other,
and its edge then carries the moved time (DESIGN CHOICE, notes/assumptions/37.md). -/
def State.jumpTo (s : State) (time : BitVec 64) : State :=
  let d := ticks time - s.now
  let s := (List.finRange 96).foldl (fun s i => s.jumpEntry d i) s
  { s with
    sceneTime := time
    timer := s.timer.map fun x => x.jump d (ticks time)
    triggers := s.triggers.map fun x => { x with candidate := x.candidate.map (· + d) }
    cues := s.cues.map fun c => c.jump d }

/-- The effect of a SET_TIME (R46, R47). -/
def State.setTimeEffect (s : State) (time : BitVec 64) (_ : Unit) : State × Answer :=
  (s.jumpTo time, .done (.time s.sceneTime time))

/-- SET_TIME (R46, R47). -/
def execSetTime (l : Lane) (time : BitVec 64) (s : State) : Out :=
  s.onRequest l (.setTime time) anyFlag fun s => s.conclude l (s.checkSetTime l) (s.setTimeEffect time)

/-! ## The expiries of an AT start -/

/-- A start lead for the given start time. -/
def Message.isLeadOf (time : BitVec 64) : Message → Bool
  | .expiry (.startLead _ t) => t == time
  | _ => false

/-- A raised lead whose record still stands ARMED with the start time that the lead is for (R10, R51). -/
def State.acceptsLead (s : State) (time : BitVec 64) : Message → Bool
  | .expiry (.startLead h t) => t == time && s.armedAt time h
  | _ => false

/-- The raised leads for a start time leave the way. -/
def State.dropLeads (s : State) (time : BitVec 64) : State :=
  { s with inFlight := s.inFlight.filter fun m => !m.isLeadOf time }

/-- START_LEAD_EXPIRY (R51): one lead expiry covers every record of the time arm set whose start time is T, in the order of
the set. A raised lead names the record that asked for it: where that record has left, the lead is dropped (R10, R44), and a record
armed for the same T since then waits for its own. -/
def execStartLeadExpiry (time : BitVec 64) (s : State) : Out :=
  if s.inFlight.any (s.acceptsLead time) then .next ((s.dropLeads time).takeLead time) else .next (s.dropLeads time)

/-- The controller's taking of a start-time expiry (R75). -/
def State.takeStartTime (s : State) (h : EmitterHandle) : State :=
  match s.recordAt h with
  | none => s
  | some r =>
    match r.state with
    | .waiting => s.putRecord h.slot { r with startMark := true }
    | .priming => if r.primedNoted then s.goOnAir h else s.putRecord h.slot { r with startMark := true }
    | .staged | .armed | .onAir | .paused | .fading | .faulted | .spent => s

/-- START_TIME_EXPIRY (R75). -/
def execStartTimeExpiry (h : EmitterHandle) (s : State) : Out :=
  s.onMessage (.expiry (.startTime h)) fun s => s.takeStartTime h

end Sys2Proof.Machine
end

