-- ==== Sys2Proof/Machine/Triggers.lean ====
section
/-!
DEFINITION. The trigger and cue unit and the edge's work (R57 to R65): TRIGGER_LINE_CHANGE, TRIGGER_QUALIFIED, TRIGGER_EDGE,
CUE_CROSSING, CUE_PULSE_END.
-/

namespace Sys2Proof.Machine

/-! ## Qualification (R58) -/

/-- The active level of an edge: HIGH for RISING, LOW for FALLING. -/
def Edge.level : Edge → Bool
  | .rising => true
  | .falling => false

/-- The line of a watched trigger takes a level at the given time (R58, steps 1 and 2). -/
def TriggerRec.lineTo (r : TriggerRec) (high : Bool) (now : Int) : TriggerRec :=
  { r with
    line := high
    candidate := if high = r.settled then none else some (r.candidate.getD now) }

/-- Whether a trigger's candidate has run out at the given time (R58, step 3). -/
def TriggerRec.runOut (r : TriggerRec) (now : Int) : Bool :=
  match r.candidate with
  | some c => decide (c + 10 * r.qualification ≤ now) && r.line != r.settled
  | none => false

/-- The candidate of a trigger runs out (R58, steps 3 and 4): the settled level becomes the line's; where that is the active
level an edge is taken, at the scene time at which the qualification completed. -/
def State.settle (s : State) (t : Trigger) (time : Int) : State :=
  let r := s.triggers.get t
  let s := s.setTrigger t { r with settled := r.line, candidate := none }
  if r.line = r.edge.level then s.post (.edge t time) else s

/-- The scene time at which a trigger's qualification completes: the candidate time plus the qualification time (R58). -/
def TriggerRec.completesAt (r : TriggerRec) (now : Int) : Int := r.candidate.getD now + 10 * r.qualification

/-- The candidate of a trigger completes, at its own time, if it has been held long enough (R58). -/
def State.qualify (s : State) (t : Trigger) : State :=
  if s.phase = .ready ∧ (s.triggers.get t).runOut s.now = true then s.settle t ((s.triggers.get t).completesAt s.now) else s

/-- TRIGGER_LINE_CHANGE (R58). A candidate that has run out by the scene time of the change completes before the line moves
(notes/assumptions/32.md). During STARTING the lines are not watched, and only their level changes. -/
def execTriggerLineChange (t : Trigger) (high : Bool) (s : State) : Out :=
  if s.phase = .ready then
    let s := s.qualify t
    .next (s.setTrigger t ((s.triggers.get t).lineTo high s.now))
  else .next (s.setTrigger t { s.triggers.get t with line := high })

/-- TRIGGER_QUALIFIED (R58). -/
def execTriggerQualified (t : Trigger) (s : State) : Out := .next (s.qualify t)

/-! ## The edge's work (R61, R63) -/

/-- One record of the arm list joins the grant queue at the edge time (R61, step 2). -/
def State.releaseArmed (s : State) (h : EmitterHandle) (time : Int) : State :=
  match s.recordAt h with
  | none => s
  | some r => if r.state = .armed then s.becomeWaiting h time else s

/-- An unclaimed edge (R63): the owner's lane cause, and the note, whose count stops at 255. -/
def State.unclaimed (s : State) (t : Trigger) (time : Int) : State :=
  let r := s.triggers.get t
  let count := match r.note with
    | some n => n.count
    | none => 0
  (s.setTrigger t { r with note := some ⟨time, satSucc 255 count⟩ }).setCause r.owner .triggerUnclaimed

/-- Both lists of a trigger are worked through and left empty (R61). -/
def State.edgeWork (s : State) (t : Trigger) (time : Int) : State :=
  let r := s.triggers.get t
  let s := r.applyList.foldl (fun s h => s.applyStaged h) s
  let s := r.armList.foldl (fun s h => s.releaseArmed h time) s
  s.setTrigger t { s.triggers.get t with armList := [], applyList := [] }

/-- The controller's taking of an edge event (R61, R63). -/
def State.takeEdge (s : State) (t : Trigger) (time : Int) : State :=
  let r := s.triggers.get t
  if r.armList.isEmpty && r.applyList.isEmpty then s.unclaimed t time else s.edgeWork t time

/-- TRIGGER_EDGE (R61, R63). -/
def execTriggerEdge (t : Trigger) (time : Int) (s : State) : Out := s.onMessage (.edge t time) fun s => s.takeEdge t time

/-! ## Cue lines (R64, R65) -/

/-- A crossing at the given time pulses a cue line until 100 ticks later; a pulse in progress is only made longer (R65). -/
def CueState.pulse (c : CueState) (time : Int) : CueState :=
  match c with
  | .idle => .pulsing (time + Config.cueTicks)
  | .pulsing stop => .pulsing (max stop (time + Config.cueTicks))

/-- The controller's taking of a crossing report (R64). -/
def State.takeCrossing (s : State) (h : EmitterHandle) (line : CueLine) (time : Int) : State :=
  match s.recordAt h with
  | none => s
  | some r =>
    if r.state.holdsSlot then
      (s.putRecord h.slot { r with cueCount := satSucc Config.countMax r.cueCount }).setCue line
        ((s.cues.get line).pulse time)
    else s

/-- CUE_CROSSING (R64, R65). -/
def execCueCrossing (h : EmitterHandle) (line : CueLine) (time : Int) (s : State) : Out :=
  s.onMessage (.crossing h line time) fun s => s.takeCrossing h line time

/-- CUE_PULSE_END (R65): the count has reached the end time, and the line returns to IDLE. -/
def execCuePulseEnd (q : CueLine) (s : State) : Out :=
  match s.cues.get q with
  | .idle => .next s
  | .pulsing stop => if stop ≤ s.now then .next (s.setCue q .idle) else .next s

end Sys2Proof.Machine
end

