-- ==== Sys2Proof/Machine/Clips.lean ====
section
/-!
DEFINITION. The clip catalog and the load engine (chapter 7): DEFINE_CLIP, LOAD_CLIP, COPY_HOST_READ_DONE, LOAD_COPY_END,
RETIRE_CLIP, QUERY_CLIP, READ_COUNT_MESSAGE, CLIP_REFERENCE_RELEASE.
-/

namespace Sys2Proof.Machine

/-! ## DEFINE_CLIP (R129, R133, R134) -/

/-- The lowest page of the extent of `count` pages from `base` that a clip covers. -/
def Clip.firstCommon (c : Clip) (base count : Nat) : Option Nat :=
  if max base c.basePage < min (base + count) (c.basePage + c.pageCount) then some (max base c.basePage) else none

/-- The lesser of two page numbers, where there are any. -/
def minPage : Option Nat → Option Nat → Option Nat
  | some a, some b => some (min a b)
  | some a, none => some a
  | none, b => b

/-- The clips of the catalog, in slot order. -/
def State.clipRecords (s : State) : List Clip := s.clips.cells.filterMap (·.clip)

/-- The lowest-numbered covered page of an extent (R133, R134). -/
def State.coveredPage (s : State) (base count : Nat) : Option Nat :=
  (s.clipRecords.map fun c => c.firstCommon base count).foldl minPage none

/-- The lowest-numbered EMPTY clip slot. -/
def State.freeClip (s : State) : Option ClipNo := (List.finRange 256).find? fun i => (s.clips.get i).clip.isNone

/-- The ranges of a DEFINE_CLIP (R133, step 2). -/
def defineClipRanges (q : DefineClipReq) : Bool :=
  1 ≤ q.pageCount && q.pageCount ≤ 16384 && q.basePage ≤ 65535 && q.basePage + q.pageCount ≤ 65536 &&
  1 ≤ q.length.toNat && q.length.toNat ≤ q.pageCount * Config.pageSamples &&
  1000000 ≤ q.rate.toNat && q.rate.toNat ≤ 80000000

/-- The checks of a DEFINE_CLIP (R133). -/
def State.checkDefineClip (s : State) (q : DefineClipReq) : Checked ClipNo := do
  need (defineClipRanges q) .range
  match s.coveredPage q.basePage q.pageCount with
  | some n => .error ⟨.overlap, .page n⟩
  | none => want s.freeClip .noEntry

/-- A new clip record (R133). -/
def newClip (l : Lane) (q : DefineClipReq) : Clip where
  lane := l
  state := .defined
  basePage := q.basePage
  pageCount := q.pageCount
  length := q.length.toNat
  rate := q.rate.toNat
  expectedCrc := q.crc
  computedCrc := none
  refs := 0
  corrected := 0
  uncorrectable := 0
  attention := false
  causes := {}

/-- The effect of a DEFINE_CLIP (R131, R132, R133). -/
def State.defineClipEffect (s : State) (l : Lane) (q : DefineClipReq) (i : ClipNo) : State × Answer :=
  let x := s.clips.get i
  let g := takeGen x.gen x.unused
  (s.setClip i ⟨g, false, some (newClip l q), none⟩, .done (.clip ⟨i, g⟩))

/-- DEFINE_CLIP (R133). -/
def execDefineClip (l : Lane) (q : DefineClipReq) (s : State) : Out :=
  s.onRequest l (.defineClip q) anyFlag fun s => s.conclude l (s.checkDefineClip q) (s.defineClipEffect l q)

/-! ## The load queue and the load engine (R136 to R139) -/

/-- The host address of the next sample of a copy: reads go in ascending address order from the source address, four bytes a
sample (R137). -/
def Copy.nextAddress (x : Copy) : BitVec 64 := x.load.source + BitVec.ofNat 64 (4 * x.copied)

/-- While samples are still to come, the engine issues the host read that goes on from the next sample, for at most the bytes that
are left (R137; notes/assumptions/44.md). -/
def State.issueHostRead (s : State) : State :=
  match s.copy with
  | none => s
  | some x =>
    match s.clipAt x.load.clip with
    | none => s
    | some c => if x.copied < c.length then s.send (.hostRead x.tag x.nextAddress (4 * (c.length - x.copied))) else s

/-- The load arbiter hands the head of the queue to an IDLE engine (R136), which issues its first host read. -/
def State.dispatchLoad (s : State) : State :=
  match s.copy, s.loadQueue with
  | none, x :: xs =>
    let t : State := { s with copy := some ⟨x, 0, crcInit, s.nextTag⟩, loadQueue := xs }
    t.bumpTag.issueHostRead
  | _, _ => s

/-- A clip leaves LOADING for the given state and computed CRC (R138, R139). -/
def State.leaveLoading (s : State) (c : ClipHandle) (st : ClipState) (crc : Option (BitVec 32)) : State :=
  match s.clipAt c with
  | some x => if x.state = .loading then s.putClip c.slot { x with state := st, computedCrc := crc } else s
  | none => s

/-- The queued or copying load that a test names is abandoned (R139): it leaves the queue, or the engine becomes IDLE. -/
def State.dropLoad (s : State) (sel : Load → Bool) : State :=
  { s with
    loadQueue := s.loadQueue.filter fun x => !sel x
    copy := s.copy.filter fun x => !sel x.load }

/-- The load that a test names, with the samples copied so far: of the engine, or of the queue with none copied. -/
def State.findLoad (s : State) (sel : Load → Bool) : Option (Load × Nat) :=
  match s.copy with
  | some x => if sel x.load then some (x.load, x.copied) else (s.loadQueue.find? sel).map fun y => (y, 0)
  | none => (s.loadQueue.find? sel).map fun y => (y, 0)

/-- A load is ended by the ABORT of its lane (R139): it leaves the queue or the engine, and its clip returns to DEFINED. -/
def State.abortLoad (s : State) (l : Lane) : State :=
  match s.findLoad fun x => x.lane == l with
  | some (x, _) => (s.dropLoad fun y => y.lane == l).leaveLoading x.clip .defined none
  | none => s

/-- An owner's completion of a held request is sent to the request engine (R175). -/
def State.completeHeld (s : State) (l : Lane) (a : Answer) (copied : Nat) : State := s.post (.heldDone l a copied)

/-! ## LOAD_CLIP -/

/-- The clip handle of a request, the handle check (R131); every slot byte is in range. -/
def State.findClip (s : State) (raw : RawHandle) : Checked (ClipHandle × Clip) := do
  let c ← want (s.clipAt raw.clip) .staleHandle
  return (raw.clip, c)

/-- The state check of a LOAD_CLIP (R135, step 5). -/
def checkLoadable (c : Clip) : Checked Unit :=
  match c.state with
  | .defined => .ok ()
  | .ready => need (c.refs == 0) .inUse
  | .loading | .draining => .error (.refuse .wrongState)

/-- The checks of a LOAD_CLIP (R135). The end of the source is judged once the handle has given the clip its length
(notes/assumptions/33.md). -/
def State.checkLoadClip (s : State) (l : Lane) (q : LoadClipReq) : Checked (ClipHandle × Clip) := do
  need (q.source.toNat % 4 == 0) .range
  let (h, c) ← s.findClip q.clip
  need (q.source.toNat + 4 * c.length ≤ 2 ^ 64) .range
  need (laneMay l c.lane) .laneDenied
  checkLoadable c
  need (windowAllows (s.units.get l).window q.source.toNat (4 * c.length)) .windowViolation
  return (h, c)

/-- An accepted LOAD_CLIP (R135, R136): the clip is LOADING, the request joins the load queue, and the unit is held. -/
def State.acceptLoad (s : State) (l : Lane) (q : LoadClipReq) (h : ClipHandle) (c : Clip) : State :=
  let s := s.putClip h.slot { c with state := .loading, corrected := 0, uncorrectable := 0, computedCrc := none }
  let s := { s with loadQueue := s.loadQueue ++ [Load.mk h l q.source q.check] }
  s.dispatchLoad.hold l

/-- LOAD_CLIP (R135). -/
def execLoadClip (l : Lane) (q : LoadClipReq) (s : State) : Out :=
  s.onRequest l (.loadClip q) anyFlag fun s =>
    match s.checkLoadClip l q with
    | .error a => s.answer l a
    | .ok (h, c) => s.acceptLoad l q h c

/-- The load engine has read bytes of whole samples: they are written from the next position, the samples-copied count and the
CRC move on, and the read that follows them is issued (R137). -/
def State.copyBytes (s : State) (x : Copy) (c : Clip) (bytes : List Byte) : State :=
  { s with
    clipMem := s.clipMem.writeBytes (sampleAddr c.basePage x.copied) bytes
    copy := some { x with copied := x.copied + bytes.length / 4, crc := bytes.foldl crcByte x.crc } }.issueHostRead

/-- The current copy with its clip, when it has the given transfer number; a read that was issued before its load was
abandoned finds another number or none, and is disregarded (R139). -/
def State.currentCopy (s : State) (tag : Nat) : Option (Copy × Clip) :=
  match s.copy with
  | some x => if x.tag = tag then (s.clipAt x.load.clip).map fun c => (x, c) else none
  | none => none

/-- COPY_HOST_READ_DONE (R137): a host read of whole samples, at most those still to come. -/
def execCopyHostReadDone (tag : Nat) (bytes : List Byte) (s : State) : Out :=
  match s.currentCopy tag with
  | some (x, c) =>
    if bytes.length % 4 = 0 ∧ x.copied + bytes.length / 4 ≤ c.length then .next (s.copyBytes x c bytes) else .next s
  | none => .next s

/-- The outcome of a copy that has read every byte (R138): the clip's new state and the answer of its block. -/
def copyOutcome (check : Bool) (computed expected : BitVec 32) : ClipState × Answer :=
  if check ∧ computed ≠ expected then (.defined, ⟨.crcMismatch, .crcs computed expected⟩)
  else (.ready, .done (.crc computed))

/-- A copy ends (R138). -/
def State.endCopy (s : State) (x : Copy) (c : Clip) (failed : Bool) : State :=
  let s := { s with copy := none }
  let s :=
    if failed then
      (s.leaveLoading x.load.clip .defined none).completeHeld x.load.lane ⟨.linkReadError, .copied x.copied⟩ x.copied
    else
      let crc := crcFinal x.crc
      let o := copyOutcome x.load.check crc c.expectedCrc
      (s.leaveLoading x.load.clip o.1 (some crc)).completeHeld x.load.lane o.2 x.copied
  s.dispatchLoad

/-- LOAD_COPY_END (R138): a host read has failed, or every sample has been copied. A failure that is reported when every sample has
been copied, and no host read is outstanding, ends the load as one of R138's last row, LINK_READ_ERROR, all the same (DESIGN CHOICE,
notes/assumptions/49.md). -/
def execLoadCopyEnd (tag : Nat) (failed : Bool) (s : State) : Out :=
  match s.currentCopy tag with
  | some (x, c) => if failed = true ∨ x.copied = c.length then .next (s.endCopy x c failed) else .next s
  | none => .next s

/-! ## RETIRE_CLIP (R141) -/

/-- The checks of a RETIRE_CLIP. -/
def State.checkRetireClip (s : State) (l : Lane) (raw : RawHandle) : Checked (ClipHandle × Clip) := do
  let (h, c) ← s.findClip raw
  need (laneMay l c.lane) .laneDenied
  return (h, c)

/-- A clip becomes EMPTY with no drained note; its slot's generation is kept (R132, R141). -/
def State.emptyClip (s : State) (h : ClipHandle) : State :=
  s.setClip h.slot { s.clips.get h.slot with clip := none, note := none }

/-- The load of a clip that is retired is abandoned, and its lane's block completes ABORTED (R139, R141). -/
def State.abandonLoadOf (s : State) (h : ClipHandle) : State :=
  match s.findLoad fun x => x.clip == h with
  | some (x, n) =>
    ((s.dropLoad fun y => y.clip == h).completeHeld x.lane ⟨.aborted, .copied n⟩ n).dispatchLoad
  | none => s

/-- The effect of a RETIRE_CLIP (R141). -/
def State.retireClipEffect (s : State) (x : ClipHandle × Clip) : State × Answer :=
  let emptied := Answer.done (.clipRetired .immediate 0)
  let deferred := Answer.done (.clipRetired .deferred x.2.refs)
  match x.2.state with
  | .defined => (s.emptyClip x.1, emptied)
  | .loading => ((s.emptyClip x.1).abandonLoadOf x.1, emptied)
  | .ready => if x.2.refs = 0 then (s.emptyClip x.1, emptied)
              else (s.putClip x.1.slot { x.2 with state := .draining }, deferred)
  | .draining => (s, deferred)

/-- RETIRE_CLIP (R141). -/
def execRetireClip (l : Lane) (clip : RawHandle) (s : State) : Out :=
  s.onRequest l (.retireClip clip) anyFlag fun s => s.conclude l (s.checkRetireClip l clip) s.retireClipEffect

/-! ## QUERY_CLIP (R144) -/

/-- The place of a clip in the load queue, counted from 1 at the head (R136). -/
def State.loadPlace (s : State) (h : ClipHandle) : Nat := (s.loadQueue.takeWhile fun x => x.clip != h).length + 1

/-- The load field of a clip's image (R130, R144). -/
def State.loadImage (s : State) (h : ClipHandle) : Option LoadImage :=
  match s.copy with
  | some x =>
    if x.load.clip = h then some ⟨x.load.lane, x.load.check, .copying, x.copied⟩
    else (s.loadQueue.find? fun y => y.clip == h).map fun y => ⟨y.lane, y.check, .queued (s.loadPlace h), 0⟩
  | none => (s.loadQueue.find? fun y => y.clip == h).map fun y => ⟨y.lane, y.check, .queued (s.loadPlace h), 0⟩

/-- The image of a clip (R130). -/
def State.clipImage (s : State) (h : ClipHandle) (c : Clip) : ClipImage where
  handle := h
  lane := c.lane
  state := c.state
  basePage := c.basePage
  pageCount := c.pageCount
  length := c.length
  rate := c.rate
  expectedCrc := c.expectedCrc
  computedCrc := c.computedCrc
  load := if c.state = .loading then s.loadImage h else none
  refs := c.refs
  corrected := c.corrected
  uncorrectable := c.uncorrectable
  attention := c.attention
  causes := c.causes

/-- The checks of a QUERY_CLIP: a lane reads its own clips and L0's (R131). -/
def State.checkQueryClip (s : State) (l : Lane) (raw : RawHandle) : Checked (ClipHandle × Clip) := do
  let (h, c) ← s.findClip raw
  need (laneMayUse l c.lane) .laneDenied
  return (h, c)

/-- The effect of a QUERY_CLIP: the image as it stood, and then the clearing (R144). -/
def State.queryClipEffect (s : State) (clear : Bool) (x : ClipHandle × Clip) : State × Answer :=
  let t := if clear then s.putClip x.1.slot x.2.clearAttention else s
  (t, .done (.clipImage (s.clipImage x.1 x.2)))

/-- QUERY_CLIP (R144). -/
def execQueryClip (l : Lane) (clip : RawHandle) (clear : Bool) (s : State) : Out :=
  s.onRequest l (.queryClip clip) (fun h => h.clear == clear) fun s =>
    s.conclude l (s.checkQueryClip l clip) (s.queryClipEffect clear)

/-! ## Messages to the clip catalog controller (R120, R142, R143) -/

/-- The catalog's taking of a counting message (R143). -/
def State.countRead (s : State) (c : ClipHandle) (o : ReadOutcome) : State :=
  match s.clipAt c with
  | none => s
  | some x =>
    match o with
    | .clean => s
    | .corrected => s.putClip c.slot { x with corrected := satSucc Config.countMax x.corrected }
    | .uncorrectable =>
      (s.putClip c.slot { x with uncorrectable := satSucc Config.countMax x.uncorrectable }).raiseReadError c

/-- READ_COUNT_MESSAGE (R143). -/
def execReadCountMessage (c : ClipHandle) (outcome : ReadOutcome) (s : State) : Out :=
  s.onMessage (.readCount c outcome) fun s => s.countRead c outcome

/-- The number of entries, in STAGED through FAULTED, whose clip is the given one: what its reference count is to be (R140). -/
def State.holders (s : State) (c : ClipHandle) : Nat := (s.records.filter fun r => r.state.isHolding && r.clip == c).length

/-- CLIP_REFERENCE_RELEASE (R120, R142): the release of an entry that has left the holding states. The event in which an entry
leaves takes its release with it, so a release stands only while the count exceeds the entries that hold the clip; otherwise
there is none to take (notes/assumptions/4.md). -/
def execClipReferenceRelease (c : ClipHandle) (s : State) : Out :=
  match s.clipAt c with
  | some x => if s.holders c < x.refs then .next (s.releaseReference c) else .next s
  | none => .next s

end Sys2Proof.Machine
end

