-- ==== Sys2Proof/Machine/Trig.lean ====
section
/-!
DEFINITION. Cosine and sine as whole numbers of an amplitude, to the nearest (R34, R153). The manual names the values; the
series by which they are reached is this model's (notes/assumptions/20.md). An angle is counted in 4,294,967,296ths of a turn.
-/

namespace Sys2Proof.Machine

/-- The scale of the fixed-point numbers here: 96 bits after the point. -/
def trigScale : Int := 2 ^ 96

/-- One turn in radians, in that scale. -/
def trigTurn : Int := 497805226624462170461043889244

/-- The alternating series 1 - y/((k+1)(k+2)) (1 - y/((k+3)(k+4)) (...)), to the given number of factors. -/
def trigSeries (y : Int) (k : Nat) : Nat → Int
  | 0 => trigScale
  | n + 1 => trigScale - y * trigSeries y (k + 2) n / (trigScale * ((k + 1) * (k + 2) : Nat))

/-- The nearest whole number of an amplitude times a value at or above 0 in the scale. -/
def trigRound (amp x : Int) : Int := (2 * amp * x + trigScale) / (2 * trigScale)

/-- Amplitude times cosine and sine of an angle within the first quarter turn. -/
def quarterTurn (amp : Int) (a : Nat) : IqValue :=
  let x := (a : Int) * trigTurn / 4294967296
  let y := x * x / trigScale
  ⟨trigRound amp (trigSeries y 0 20), trigRound amp (x * trigSeries y 1 20 / trigScale)⟩

/-- Amplitude times cosine and sine of an angle, each to the nearest whole number. -/
def onCircle (amp : Int) (angle : BitVec 32) : IqValue :=
  let a := angle.toNat
  let z := quarterTurn amp (a % 1073741824)
  match a / 1073741824 with
  | 0 => z
  | 1 => ⟨-z.q, z.i⟩
  | 2 => ⟨-z.i, -z.q⟩
  | _ => ⟨z.q, -z.i⟩

/-- A phase in degrees as an angle (R34). -/
def phaseAngle (degrees : Nat) : BitVec 32 := BitVec.ofInt 32 (roundDiv ((degrees : Int) * 4294967296) 360)

end Sys2Proof.Machine
end

