-- ==== Sys2Proof/Machine/Ports.lean ====
section
/-!
DEFINITION. The port controllers (8.1 to 8.4, 8.7): the output sample, SET_OUTPUT, QUERY_PORT, OUTPUT_CHANGE_EXPIRY,
PORT_JOIN, PORT_WEIGHT, PORT_LEAVE, RESERVATION_CLAIM, RESERVATION_RELEASE, PORT_OUTPUT_SAMPLE.
-/

namespace Sys2Proof.Machine

/-! ## The output sample (R33, R34, R114, R150 to R153) -/

/-- Both parts multiplied by a factor and divided by 1,024, fractions dropped toward zero (R33). -/
def scaleIq (z : IqValue) (n : Int) : IqValue := ⟨(z.i * n).tdiv 1024, (z.q * n).tdiv 1024⟩

/-- A value turned by an angle (R34, step 4 of R33). -/
def turnIq (z : IqValue) (angle : BitVec 32) : IqValue :=
  let u := onCircle 32768 angle
  ⟨(z.i * u.i - z.q * u.q).tdiv 32768, (z.i * u.q + z.q * u.i).tdiv 32768⟩

/-- The sum of two values. -/
def addIq (a b : IqValue) : IqValue := ⟨a.i + b.i, a.q + b.q⟩

/-- A clip sample as exact integers. -/
def sampleValue (x : Sample) : IqValue := ⟨x.i.toInt, x.q.toInt⟩

/-- The ramp gain at a scene time (R114); 1,024 for a record without a ramp. R114 also says that the gain is 1,024 at the first
output sample after the RETIRE; where that sample falls a tick or more after it, the formula gives less, and this follows the
formula (DESIGN CHOICE, notes/assumptions/39.md). -/
def Record.rampGain (r : Record) (now : Int) : Int :=
  match r.ramp with
  | none => 1024
  | some x => if x.stop ≤ now then 0 else 1024 * (x.stop - now) / x.length

/-- A path's contribution at an output sample (R33): weight, fade gain, ramp gain, rotation. -/
def State.contribution (s : State) (r : Record) (p : Path) (x : HandOver) : IqValue :=
  let z := scaleIq (scaleIq (sampleValue x.sample) p.vals.weight) (s.pathGain p)
  let z := if r.state = .fading then scaleIq z (r.rampGain s.now) else z
  turnIq z (phaseAngle p.vals.phase + x.acc)

/-- A member composed from its latest hand-over; zero while its emitter is neither ON_AIR nor FADING (R150). -/
def State.memberSum (s : State) (m : Member) : IqValue :=
  match s.recordAt m.handle with
  | none => ⟨0, 0⟩
  | some r =>
    if r.state.sounds then
      (List.zipWith (fun p x => s.contribution r p x) r.paths m.handOver).foldl addIq ⟨0, 0⟩
    else ⟨0, 0⟩

/-- The scene sum of a port (R151). -/
def State.sceneSum (s : State) (r : PortRec) : IqValue := (r.members.map s.memberSum).foldl addIq ⟨0, 0⟩

/-- One part of the sum scaled to the head's range and held at its ends (R151). -/
def toHeadRange (budget : Nat) (x : Int) : Int := max (-32768) (min 32767 ((x * 1024).tdiv budget))

/-- The tone at a phase counted in 32nds of a turn (R153). -/
def toneAt (phase : Nat) : IqValue := onCircle 32767 (BitVec.ofNat 32 (phase * 134217728))

/-- What a port sends to its head at an output sample (R152). -/
def State.portOutput (s : State) (r : PortRec) : IqValue :=
  match r.mode with
  | .headOff | .retuning | .quiet => ⟨0, 0⟩
  | .tone => toneAt r.tonePhase
  | .scene =>
    let z := s.sceneSum r
    ⟨toHeadRange r.budget z.i, toHeadRange r.budget z.q⟩

/-- The tone phase after an output sample (R153): it stands still while the tone is disabled. -/
def PortRec.nextPhase (r : PortRec) : Nat :=
  if r.output.tone then (r.tonePhase + 32 / r.output.divider) % 32 else r.tonePhase

/-- PORT_OUTPUT_SAMPLE (R152). -/
def execPortOutputSample (p : Port) (s : State) : Out :=
  let r := s.ports.get p
  .next (s.setPort p { r with pin := s.portOutput r, tonePhase := r.nextPhase })

/-! ## Messages of the emitter table controller (R99, R100, R103, R119, R149) -/

/-- PORT_JOIN (R149). -/
def execPortJoin (p : Port) (h : EmitterHandle) (weight : Nat) (s : State) : Out := .next (s.joinPort p h weight)

/-- PORT_WEIGHT (R103). -/
def execPortWeight (p : Port) (h : EmitterHandle) (weight : Nat) (s : State) : Out := .next (s.weighPort p h weight)

/-- PORT_LEAVE (R119). -/
def execPortLeave (p : Port) (h : EmitterHandle) (s : State) : Out := .next (s.leavePort p h)

/-- RESERVATION_CLAIM (R99). -/
def execReservationClaim (p : Port) (h : EmitterHandle) (join : Bool) (increase : Nat) (s : State) : Out :=
  .next (s.claimPort p h join increase)

/-- RESERVATION_RELEASE (R100). -/
def execReservationRelease (p : Port) (h : EmitterHandle) (s : State) : Out := .next (s.releasePort p h)

/-! ## SET_OUTPUT (R154, R155) -/

/-- The port of a request, and the lane rights of its owner: RANGE, then LANE_DENIED (R154, R162, R165). -/
def State.findPort (s : State) (l : Lane) (b : BitVec 8) : Checked Port := do
  let p ← want (eight b) .range
  need (laneMay l (s.ports.get p).owner) .laneDenied
  return p

/-- The checks of a SET_OUTPUT (R154). -/
def State.checkSetOutput (s : State) (l : Lane) (q : SetOutputReq) : Checked Port := do
  let _ ← want (eight q.port) .range
  need (q.divider == 4 || q.divider == 8 || q.divider == 16 || q.divider == 32) .range
  s.findPort l q.port

/-- The frame boundary at which a port's pending output is taken: that of the outstanding expiry, or the next one. -/
def State.outputBoundary (s : State) (p : Port) : Int :=
  match s.timer.find? fun x => x.kind == .outputChange p with
  | some x => x.due
  | none =>
    if s.outstanding (.outputChange p) then s.now / Config.frameTicks * Config.frameTicks else nextBoundary s.now

/-- The effect of a SET_OUTPUT (R154). -/
def State.setOutputEffect (s : State) (q : SetOutputReq) (p : Port) : State × Answer :=
  let boundary := s.outputBoundary p
  let t := s.setPort p { s.ports.get p with pendingOutput := some ⟨q.scene, q.tone, q.divider⟩ }
  (if s.outstanding (.outputChange p) then t else t.request (.outputChange p) boundary,
    .done (.output .pending boundary))

/-- SET_OUTPUT (R154). -/
def execSetOutput (l : Lane) (q : SetOutputReq) (s : State) : Out :=
  s.onRequest l (.setOutput q) anyFlag fun s => s.conclude l (s.checkSetOutput l q) (s.setOutputEffect q)

/-- The pending output becomes the port's output; the phase is 0 where the tone becomes enabled (R153, R155). -/
def PortRec.changeOutput (r : PortRec) : PortRec :=
  match r.pendingOutput with
  | none => r
  | some o =>
    { r with
      output := o
      pendingOutput := none
      tonePhase := if o.tone && !r.output.tone then 0 else r.tonePhase }

/-- OUTPUT_CHANGE_EXPIRY (R155). -/
def execOutputChangeExpiry (p : Port) (s : State) : Out :=
  s.onMessage (.expiry (.outputChange p)) fun s => s.modifyPort p PortRec.changeOutput

/-! ## QUERY_PORT (R165) -/

/-- The image of a port (R165). -/
def State.portImage (s : State) (p : Port) : PortImage :=
  let r := s.ports.get p
  { owner := r.owner
    clock := r.clock
    rate := s.portRate p
    budget := r.budget
    output := r.output
    pendingOutput := r.pendingOutput
    pendingAt := r.pendingOutput.map fun _ => s.outputBoundary p
    mode := r.mode
    head := r.head
    identity := r.identity
    detail := r.detail
    faultCount := r.faultCount
    exchange := r.exchange.map fun x => (x.kind, x.beganAt)
    members := r.members.map fun m => (m.handle, m.weight)
    reservations := r.reservations
    reservedJoins := r.reservedJoins
    committed := r.committed
    freeRoom := (r.budget : Int) - r.committed
    attention := r.attention
    causes := r.causes }

/-- The effect of a QUERY_PORT: the image as it stood, and then the clearing (R165). -/
def State.queryPortEffect (s : State) (clear : Bool) (p : Port) : State × Answer :=
  let t := if clear then s.modifyPort p PortRec.clearAttention else s
  (t, .done (.portImage (s.portImage p)))

/-- QUERY_PORT (R165). -/
def execQueryPort (l : Lane) (port : BitVec 8) (clear : Bool) (s : State) : Out :=
  s.onRequest l (.queryPort port) (fun h => h.clear == clear) fun s =>
    s.conclude l (s.findPort l port) (s.queryPortEffect clear)

end Sys2Proof.Machine
end

