-- ==== Sys2Proof/Machine/Heads.lean ====
section
/-!
DEFINITION. The head links (8.5, 8.6) and the end of start-up (R190, R191): CONFIGURE_PORT, RESTART_PORT, PROBE_ANSWER,
SET_RATE_ACK, HEAD_EXCHANGE_TIMEOUT, HEAD_STATUS_MESSAGE.
-/

namespace Sys2Proof.Machine

/-! ## Exchanges (R156) -/

/-- An exchange begins at a port (R156): the tag is raised by one, the command is sent with it, and the answer is due 50,000
periods of the bench reference later. -/
def State.beginExchange (s : State) (p : Port) (kind : ExchangeKind) (purpose : ExchangeFor) (faulted : Bool) : State :=
  let r := s.ports.get p
  let tag := r.tag + 1
  let x : Exchange := ⟨kind, tag, purpose, s.refTime + Config.answerPeriods, s.sceneTime, faulted⟩
  let t := s.setPort p { r with tag := tag, exchange := some x }
  match kind with
  | .probe => t.send (.probe p tag)
  | .setRate => t.send (.setRate p tag (s.portRate p) (s.runsExternal p))

/-- A port's exchange ends. -/
def State.endExchange (s : State) (p : Port) : State := s.setPort p { s.ports.get p with exchange := none }

/-! ## Head faults (R157, R158, R190) -/

/-- A head fault at a port (R157): the state, the detail, the fault count; the exchange in flight notes it (R163). A PROBE
of start-up leaves its head UNFITTED while it is in flight (R190); when it is answered the head is in FAULT (R157;
notes/assumptions/16.md). -/
def PortRec.faulted (r : PortRec) (c : FaultCondition) (value : Nat) (now : BitVec 64) : PortRec :=
  let startUpProbe : Bool := match r.exchange with
    | some x => x.purpose == .startUp && x.kind == .probe
    | none => false
  { r with
    head := if startUpProbe then r.head else .fault
    detail := some ⟨c, value, now⟩
    faultCount := satSucc 65535 r.faultCount
    exchange := r.exchange.map fun x => { x with faulted := true } }

/-- A head fault is taken; while the part is READY it raises PORT_FAULT (R157, R158). -/
def State.headFault (s : State) (p : Port) (c : FaultCondition) (value : Nat) : State :=
  let t := s.setPort p ((s.ports.get p).faulted c value s.sceneTime)
  if s.phase = .ready then t.raisePort p .addPortFault else t

/-- HEAD_STATUS_MESSAGE (R157). -/
def execHeadStatusMessage (p : Port) (ready : Bool) (condition : StatusCondition) (detail : BitVec 16) (s : State) : Out :=
  if (s.ports.get p).head = .unfitted then .next s
  else
    match ready, condition with
    | true, .none => .next s
    | false, .overdrive => .next (s.headFault p .overdrive detail.toNat)
    | false, .lockLost => .next (s.headFault p .lockLost detail.toNat)
    | true, .overdrive | true, .lockLost | false, .none => .next (s.headFault p .headProtocol detail.toNat)

/-! ## The end of start-up (R191) -/

/-- The part becomes READY (R191): each trigger's settled level is taken from its line, with the candidate absent. -/
def State.becomeReady (s : State) : State :=
  { s with
    phase := .ready
    triggers := s.triggers.map fun r => { r with settled := r.line, candidate := none } }

/-- Whether a port's start-up is still going on: an exchange of start-up is in flight. -/
def PortRec.starting (r : PortRec) : Bool :=
  match r.exchange with
  | some x => x.purpose == .startUp
  | none => false

/-- When the last of the eight ports has ended its start-up, the part becomes READY (R191). -/
def State.checkReady (s : State) : State :=
  if s.phase = .probing ∧ s.ports.cells.all (fun r => !r.starting) = true then s.becomeReady else s

/-! ## How exchanges end (R161 to R163, R190) -/

/-- The head states that a CONFIGURE_PORT reports (R161). -/
def State.headStates (s : State) (ps : List Port) : List (Port × HeadState) := ps.map fun p => (p, (s.ports.get p).head)

/-- Whether an exchange of the CONFIGURE_PORT at the given port is in flight on a port. -/
def State.configuring (s : State) (lane : Lane) (home p : Port) : Bool :=
  match (s.ports.get p).exchange with
  | some x => x.purpose == .configure lane home
  | none => false

/-- The answer of a CONFIGURE_PORT whose last exchange has ended (R161); a refusal names the lowest-numbered silent port. -/
def State.configureAnswer (s : State) (j : ConfigureJob) : Answer :=
  let states := s.headStates j.told
  match (List.finRange 8).find? fun p => j.silent.contains p with
  | some p => ⟨.headNoResponse, .silent p states⟩
  | none => .done (.heads states)

/-- A CONFIGURE_PORT is completed once no exchange of it is in flight (R161). -/
def State.settleConfigure (s : State) (home : Port) : State :=
  match (s.ports.get home).job with
  | none => s
  | some j =>
    if j.told.any fun p => s.configuring j.lane home p then s
    else (s.setPort home { s.ports.get home with job := none }).completeHeld j.lane (s.configureAnswer j) 0

/-- A told port has not answered in time (R161). -/
def State.noteSilent (s : State) (home p : Port) : State :=
  s.setPort home
    { s.ports.get home with job := (s.ports.get home).job.map fun j => { j with silent := j.silent ++ [p] } }

/-- The head state and identity that a RESTART_PORT reports (R162, R163). -/
def State.headResult (s : State) (p : Port) : Result := .head (s.ports.get p).head (s.ports.get p).identity

/-- An exchange has brought its port to rest (R161 to R163, R190); a RESTART_PORT is completed with the given answer. -/
def State.settlePort (s : State) (f : ExchangeFor) (a : Answer) : State :=
  match f with
  | .startUp => s.checkReady
  | .restart lane => s.completeHeld lane a 0
  | .configure _ home => s.settleConfigure home

/-- A PROBE has been answered (R162, R190): the identity is written, and either SET_RATE begins or the head is in FAULT. A head
fault taken during the exchange leaves the head in FAULT as the exchange ends (R157). In start-up the head otherwise stays UNFITTED
while the SET_RATE is in flight, and a status message then is dropped: R190 says UNFITTED only of the PROBE (DESIGN CHOICE,
notes/assumptions/50.md). -/
def State.probeAnswered (s : State) (p : Port) (x : Exchange) (identity : BitVec 32) (maxRate : Nat) : State :=
  let s := (s.endExchange p).modifyPort p fun r =>
    { r with identity := some ⟨identity, maxRate⟩, head := if x.faulted then .fault else r.head }
  if maxRate < s.portRate p then
    let t := s.headFault p .rateLimit maxRate
    t.settlePort x.purpose (.done (t.headResult p))
  else s.beginExchange p .setRate x.purpose x.faulted

/-- The head after an acknowledged SET_RATE (R161, R163, R190): a CONFIGURE_PORT leaves it as it is; otherwise it is READY
with its fault count 0, or in FAULT when a fault has been taken since the PROBE. -/
def PortRec.acknowledged (r : PortRec) (x : Exchange) : PortRec :=
  match x.purpose with
  | .configure _ _ => r
  | .startUp | .restart _ => if x.faulted then { r with head := .fault } else { r with head := .ready, faultCount := 0 }

/-- A SET_RATE has been acknowledged (R161, R163, R190). -/
def State.rateAcknowledged (s : State) (p : Port) (x : Exchange) : State :=
  let t := (s.endExchange p).modifyPort p fun r => r.acknowledged x
  t.settlePort x.purpose (.done (if x.faulted then .headState .fault else t.headResult p))

/-- A PROBE has timed out (R162, R190): the head is UNFITTED and its identity absent; HEAD_LOST is raised for a head that was
READY or in FAULT, except in start-up. -/
def State.probeTimedOut (s : State) (p : Port) (x : Exchange) : State :=
  let lost := (s.ports.get p).head ≠ .unfitted ∧ s.phase = .ready
  let s := (s.endExchange p).modifyPort p fun r => { r with head := .unfitted, identity := none }
  let s := if lost then s.raisePort p .addHeadLost else s
  s.settlePort x.purpose (.refuse .headNoResponse)

/-- A SET_RATE has timed out (R161, R163, R190): the head is in FAULT with NO_RESPONSE. The fault count rises by one, as R157 says; R190
gives it as 1, which it is unless an answer of the wrong kind has been a fault of the same start-up (DESIGN CHOICE,
notes/assumptions/51.md). -/
def State.rateTimedOut (s : State) (p : Port) (x : Exchange) : State :=
  let s := (s.endExchange p).headFault p .noResponse 0
  match x.purpose with
  | .configure _ home => (s.noteSilent home p).settlePort x.purpose (.refuse .headNoResponse)
  | .startUp | .restart _ => s.settlePort x.purpose (.refuse .headNoResponse)

/-- The exchange in flight that an answer meets: it has the answer's tag, and its time has not run out (R156). -/
def State.awaited (s : State) (p : Port) (tag : BitVec 8) : Option Exchange :=
  match (s.ports.get p).exchange with
  | some x => if x.tag = tag ∧ s.refTime < x.due then some x else none
  | none => none

/-- PROBE_ANSWER (R156, R162, R190). -/
def execProbeAnswer (p : Port) (tag : BitVec 8) (identity : BitVec 32) (maxRate : Nat) (s : State) : Out :=
  match s.awaited p tag with
  | none => .next s
  | some x =>
    match x.kind with
    | .probe => .next (s.probeAnswered p x identity maxRate)
    | .setRate => .next (s.headFault p .headProtocol 0)

/-- SET_RATE_ACK (R156, R161, R163, R190). -/
def execSetRateAck (p : Port) (tag : BitVec 8) (s : State) : Out :=
  match s.awaited p tag with
  | none => .next s
  | some x =>
    match x.kind with
    | .setRate => .next (s.rateAcknowledged p x)
    | .probe => .next (s.headFault p .headProtocol 0)

/-- HEAD_EXCHANGE_TIMEOUT (R156, R161 to R163, R190): the time of the exchange in flight has run out. -/
def execHeadExchangeTimeout (p : Port) (s : State) : Out :=
  match (s.ports.get p).exchange with
  | none => .next s
  | some x =>
    if x.due ≤ s.refTime then
      match x.kind with
      | .probe => .next (s.probeTimedOut p x)
      | .setRate => .next (s.rateTimedOut p x)
    else .next s

/-! ## CONFIGURE_PORT (R159 to R161) -/

/-- What the checks of a CONFIGURE_PORT find. -/
structure ConfigureFound where
  port : Port
  owner : Lane
  clock : Clock
  budget : Nat
  deriving DecidableEq, Repr

/-- The clock source of a request with its value in range (R159, steps 1 and 2). -/
def checkClock (c : ClockField) : Checked Clock :=
  match c with
  | .unknown => .error (.refuse .badRequest)
  | .synth d =>
    if d = 1 ∨ d = 2 ∨ d = 4 ∨ d = 8 ∨ d = 16 then .ok (.synth d) else .error (.refuse .range)
  | .follow b => do
    let k ← want (eight b) .range
    return .follow k
  | .external r => if 1000000 ≤ r ∧ r ≤ 80000000 then .ok (.external r) else .error (.refuse .range)

/-- A FOLLOW source names neither this port nor a follower, and this port is not followed itself (R159, step 5). -/
def State.followAllowed (s : State) (p : Port) (c : Clock) : Bool :=
  match c with
  | .follow k =>
    k != p && (match (s.ports.get k).clock with
      | .follow _ => false
      | .synth _ | .external _ => true) && (s.followers p).isEmpty
  | .synth _ | .external _ => true

/-- The ports whose heads a CONFIGURE_PORT needs fitted: the named one, and a FOLLOW leader (R159, step 4). -/
def neededHeads (p : Port) (c : Clock) : List Port :=
  match c with
  | .follow k => [p, k]
  | .synth _ | .external _ => [p]

/-- A head takes a rate: the maximum of its identity is not below it; an absent identity sets no limit
(notes/assumptions/17.md). -/
def State.headTakes (s : State) (rate : Nat) (p : Port) : Bool :=
  match (s.ports.get p).identity with
  | some x => rate ≤ x.maxRate
  | none => true

/-- The followers of a port whose heads are not UNFITTED, in ascending order (R160). -/
def State.fittedFollowers (s : State) (p : Port) : List Port :=
  (s.followers p).filter fun k => (s.ports.get k).head != .unfitted

/-- A port without member, reservation or exchange (R159, step 6). -/
def PortRec.open (r : PortRec) : Bool := r.vacant && r.exchange.isNone

/-- The port and its followers, in ascending order. -/
def State.portAndFollowers (s : State) (p : Port) : List Port :=
  (List.finRange 8).filter fun k => k == p || (s.ports.get k).clock == .follow p

/-- The checks of a CONFIGURE_PORT, in the order of R159. A refusal at step 5 names the port whose head or rate failed; where it is a
condition on FOLLOW that failed (the leader is this port or a follower, or this port is followed), no head or rate did, and the port
of the request is named (DESIGN CHOICE, notes/assumptions/57.md). -/
def State.checkConfigure (s : State) (l : Lane) (q : ConfigurePortReq) : Checked ConfigureFound := do
  need (q.clock != .unknown) .badRequest
  let p ← want (eight q.port) .range
  let c ← checkClock q.clock
  need (256 ≤ q.budget && q.budget ≤ 8192) .range
  let owner ← want (four q.owner) .range
  need (l == 0 || ((s.ports.get p).owner == l && owner == l)) .laneDenied
  needPorts (neededHeads p c) (fun k => (s.ports.get k).head != .unfitted) .portUnfitted
  needPorts [p] (fun k => s.followAllowed k c) .range
  needPorts (p :: s.fittedFollowers p) (fun k => s.headTakes (s.clockRate c) k) .range
  needPorts (s.portAndFollowers p) (fun k => (s.ports.get k).open) .portBusy
  return ⟨p, owner, c, q.budget⟩

/-- An accepted CONFIGURE_PORT (R160): the configuration is written, SET_RATE begins on the port and on each fitted follower,
and the unit is held. -/
def State.acceptConfigure (s : State) (l : Lane) (x : ConfigureFound) : State :=
  let told := x.port :: s.fittedFollowers x.port
  let s := s.modifyPort x.port fun r =>
    { r with owner := x.owner, clock := x.clock, budget := x.budget, job := some ⟨l, told, []⟩ }
  let s := told.foldl (fun s p => s.beginExchange p .setRate (.configure l x.port) false) s
  s.hold l

/-- CONFIGURE_PORT (R159 to R161). -/
def execConfigurePort (l : Lane) (q : ConfigurePortReq) (s : State) : Out :=
  s.onRequest l (.configurePort q) anyFlag fun s =>
    match s.checkConfigure l q with
    | .error a => s.answer l a
    | .ok x => s.acceptConfigure l x

/-! ## RESTART_PORT (R162, R163) -/

/-- The checks of a RESTART_PORT (R162). -/
def State.checkRestart (s : State) (l : Lane) (port : BitVec 8) : Checked Port := do
  let p ← s.findPort l port
  need (s.ports.get p).exchange.isNone .portBusy
  return p

/-- RESTART_PORT (R162): a PROBE begins, and the unit is held. -/
def execRestartPort (l : Lane) (port : BitVec 8) (s : State) : Out :=
  s.onRequest l (.restartPort port) anyFlag fun s =>
    match s.checkRestart l port with
    | .error a => s.answer l a
    | .ok p => (s.beginExchange p .probe (.restart l) false).hold l

/-! ## Ending a held port request early (R164) -/

/-- Whether an exchange was begun by a held request of a lane. -/
def ExchangeFor.isOf (f : ExchangeFor) (l : Lane) : Bool :=
  match f with
  | .startUp => false
  | .configure k _ | .restart k => k == l

/-- A port's part of the ending of a lane's held port request (R164): its exchange ends at once, the head keeps its state. -/
def PortRec.dropHeld (r : PortRec) (l : Lane) : PortRec :=
  { r with
    exchange := r.exchange.filter fun x => !x.purpose.isOf l
    job := r.job.filter fun j => j.lane != l }

/-- Every exchange of a lane's held port request ends at once (R164). -/
def State.abortPorts (s : State) (l : Lane) : State := { s with ports := s.ports.map fun r => r.dropHeld l }

end Sys2Proof.Machine
end

