-- ==== Sys2Proof/Machine/Engine.lean ====
section
/-!
DEFINITION. The request engine (chapter 9): the window commands, the walking of a list, the hand-over and the answer:
WINDOW_START, WINDOW_RESUME, WINDOW_ABORT, LIST_COMMAND_INVALID, CAUSE_SUMMARY_WRITE, INTERRUPT_ENABLE_WRITE,
SCENE_TIME_READ_LOW, SCENE_TIME_READ_HIGH, REGISTER_WRITE, FETCH_HEADER_DONE, FETCH_REQUEST_DONE, FETCH_READ_FAILED,
RESUME_LINK_READ_DONE, HAND_OVER, HELD_REQUEST_COMPLETE, WRITE_DONE, WRITE_FAILED, NOP, SCENE_FLUSH.
-/

namespace Sys2Proof.Machine

/-! ## Units -/

/-- The unit of a lane with another state and no fetched block or answer. -/
def State.moveUnit (s : State) (l : Lane) (st : UnitState) : State :=
  s.setUnit l { s.units.get l with state := st, block := none, answer := none }

/-- The unit moves to FAULTED, which sets RU_FAULTED (R171, R173, R176). -/
def State.faultUnit (s : State) (l : Lane) (d : UnitFault) : State :=
  (s.moveUnit l (.faulted d)).setCause l .ruFaulted

/-- A read of the given kind begins on a unit's behalf (R173). -/
def State.beginRead (s : State) (l : Lane) (p : Phase) (b : Option Block) : State :=
  (s.setUnit l { s.units.get l with state := .active p, block := b, answer := none, tag := s.nextTag }).bumpTag

/-- The fetch of the block at an address, up to its header read (R173, steps 1 to 3). -/
def State.beginFetch (s : State) (l : Lane) (addr : BitVec 64) : State :=
  let s := s.setUnit l { s.units.get l with current := addr }
  if addr.toNat % 16 ≠ 0 then s.faultUnit l .alignment
  else if windowAllows (s.units.get l).window addr.toNat 16 then s.beginRead l .fetchHeader none
  else s.faultUnit l .window

/-- Whether a unit waits for the transfer of the given number in the given phase. -/
def State.awaitsTransfer (s : State) (l : Lane) (p : Phase) (tag : Nat) : Bool :=
  (s.units.get l).state == .active p && (s.units.get l).tag == tag

/-! ## Walking (R173, R171) -/

/-- The header of a block has been read (R173, steps 4 and 5). Lengths out of range leave the request area unread. -/
def State.takeHeader (s : State) (l : Lane) (h : Header) : State :=
  let u := s.units.get l
  let extent := if h.lengthsOk then h.extent else 16
  if windowAllows u.window u.current.toNat extent then
    if h.lengthsOk then s.beginRead l .fetchRequest (some ⟨h, none⟩)
    else s.setUnit l { u with state := .active .waitingTurn, block := some ⟨h, none⟩ }
  else s.faultUnit l .window

/-- FETCH_HEADER_DONE (R173). -/
def execFetchHeaderDone (l : Lane) (tag : Nat) (header : Header) (s : State) : Out :=
  if s.awaitsTransfer l .fetchHeader tag then .next (s.takeHeader l header) else .next s

/-- The request area of a block has been read (R173): the unit holds the fetched block and waits for its turn. -/
def State.takeArea (s : State) (l : Lane) (area : Option Request) : State :=
  let u := s.units.get l
  s.setUnit l { u with state := .active .waitingTurn, block := some ⟨u.header, area⟩ }

/-- FETCH_REQUEST_DONE (R173). -/
def execFetchRequestDone (l : Lane) (tag : Nat) (area : Option Request) (s : State) : Out :=
  if s.awaitsTransfer l .fetchRequest tag then .next (s.takeArea l area) else .next s

/-- FETCH_READ_FAILED (R171, R173): a header read, a request read or the re-read of a link fails; the current block stays. -/
def execFetchReadFailed (l : Lane) (tag : Nat) (s : State) : Out :=
  if s.awaitsTransfer l .fetchHeader tag || s.awaitsTransfer l .fetchRequest tag || s.awaitsTransfer l .readLink tag then
    .next (s.faultUnit l .linkRead)
  else .next s

/-- The link re-read by RESUME (R171): a failed read and an address outside the host window leave the current block where it
stood; otherwise the fetch begins at the address. -/
def State.takeLink (s : State) (l : Lane) (link : Option (BitVec 64)) : State :=
  match link with
  | none => s.faultUnit l .linkRead
  | some a =>
    if a.toNat % 16 = 0 ∧ windowAllows (s.units.get l).window a.toNat 16 = false then s.faultUnit l .window
    else s.beginFetch l a

/-- RESUME_LINK_READ_DONE (R171). -/
def execResumeLinkReadDone (l : Lane) (tag : Nat) (link : Option (BitVec 64)) (s : State) : Out :=
  if s.awaitsTransfer l .readLink tag then .next (s.takeLink l link) else .next s

/-! ## The hand-over (R168, R174) -/

/-- The unit of a lane stands in a phase. -/
def State.inPhase (s : State) (l : Lane) (p : Phase) : Bool := (s.units.get l).state == .active p

/-- The lanes in the order of the rotation after the one served last (R174). -/
def rotation (pointer : Lane) : List Lane := [pointer + 1, pointer + 2, pointer + 3, pointer]

/-- The lane whose block is handed over next, when the engine is free (R174). -/
def State.nextTurn (s : State) : Option Lane :=
  if (List.finRange 4).any fun l => s.inPhase l .handed then none
  else (rotation s.pointer).find? fun l => s.inPhase l .waitingTurn

/-- A block is handed over (R168, R174): one of bad form is answered by the engine with BAD_REQUEST. -/
def State.handOver (s : State) (l : Lane) : State :=
  let u := s.units.get l
  let t := { s with pointer := l }
  match u.block with
  | some b => if b.formOk then t.setUnit l { u with state := .active .handed } else t.answer l (.refuse .badRequest)
  | none => t.answer l (.refuse .badRequest)

/-- HAND_OVER (R174); where the engine is not free or no unit waits, there is no hand-over. -/
def execHandOver (s : State) : Out :=
  match s.nextTurn with
  | some l => .next (s.handOver l)
  | none => .next s

/-- NOP (R178). -/
def execNop (l : Lane) (s : State) : Out := s.onRequest l .nop anyFlag fun s => s.answer l (.done .empty)

/-! ## Completion (R175, R176) -/

/-- A message is an owner's completion for a lane. -/
def Message.isHeldDone (l : Lane) : Message → Bool
  | .heldDone k _ _ => k == l
  | _ => false

/-- The request engine takes an owner's completion (R175): it is dropped where the unit is no longer HELD. -/
def State.takeHeldDone (s : State) (l : Lane) (a : Answer) : State := if s.inPhase l .held then s.answer l a else s

/-- HELD_REQUEST_COMPLETE (R175). -/
def execHeldRequestComplete (l : Lane) (s : State) : Out :=
  match s.inFlight.find? fun m => m.isHeldDone l with
  | some (.heldDone k a n) => s.onMessage (.heldDone k a n) fun s => s.takeHeldDone l a
  | _ => .next s

/-- The unit acts on its block's flags once the completion is written (R176). -/
def State.actOnFlags (s : State) (l : Lane) (h : Header) : State :=
  let s := if h.notify then s.setCause l .blockNotify else s
  if h.stop then (s.moveUnit l .idle).setCause l .ruIdle
  else if h.suspend then (s.moveUnit l .suspended).setCause l .ruSuspended
  else s.beginFetch l h.link

/-- WRITE_DONE (R176): the three writes have been made in the order of R167. A unit that stands in WRITING with this transfer acts
on its block's flags; a write whose unit has been aborted, and the ABORTED of a held request, move no unit (R172). -/
def execWriteDone (l : Lane) (tag : Nat) (s : State) : Out :=
  match s.writeOf l tag with
  | none => .next s
  | some w =>
    let t := s.endWrite w 3
    if s.awaitsTransfer l .writing tag then .next (t.actOnFlags l (s.units.get l).header) else .next t

/-- WRITE_FAILED (R176): what the write has left in memory is some of the three writes, in their order
(notes/assumptions/43.md). A unit that stands in WRITING with this transfer is FAULTED; any other failure is disregarded (R172). -/
def execWriteFailed (l : Lane) (tag : Nat) (s : State) : Out :=
  match s.writeOf l tag with
  | none => .next s
  | some w =>
    let t := s.endWrite w (Config.writesMade tag)
    if s.awaitsTransfer l .writing tag then .next (t.faultUnit l .linkWrite) else .next t

/-! ## Window list commands (R170 to R172) -/

/-- WINDOW_START (R170). -/
def execWindowStart (l : Lane) (s : State) : Out :=
  let u := s.units.get l
  if s.phase = .ready then
    match u.state with
    | .idle | .faulted _ => .next (s.beginFetch l u.listBase)
    | .active _ | .suspended => .next (s.setCause l .commandRefused)
  else .next (s.setCause l .commandRefused)

/-- The link field of the suspended block is read afresh, within the host window (R171). -/
def State.beginResume (s : State) (l : Lane) : State :=
  let u := s.units.get l
  if windowAllows u.window u.current.toNat 8 then s.beginRead l .readLink none else s.faultUnit l .window

/-- WINDOW_RESUME (R171). -/
def execWindowResume (l : Lane) (s : State) : Out :=
  match (s.units.get l).state with
  | .suspended => if s.phase = .ready then .next (s.beginResume l) else .next (s.setCause l .commandRefused)
  | .idle | .active _ | .faulted _ => .next (s.setCause l .commandRefused)

/-- LIST_COMMAND_INVALID (R170): a value that is none of START 1, RESUME 2, ABORT 3. -/
def execListCommandInvalid (l : Lane) (value : BitVec 32) (s : State) : Out :=
  if value = 1 ∨ value = 2 ∨ value = 3 then .next s else .next (s.setCause l .commandRefused)

/-- The samples that a lane's load has copied: of the load still running or queued, or of one whose completion is on its
way (R172; notes/assumptions/25.md). -/
def State.copiedFor (s : State) (l : Lane) : Nat :=
  match s.findLoad fun x => x.lane == l with
  | some (_, n) => n
  | none =>
    match s.inFlight.find? fun m => m.isHeldDone l with
    | some (.heldDone _ _ n) => n
    | _ => 0

/-- The result of an ABORTED held request (R172). -/
def State.abortedResult (s : State) (l : Lane) (r : Option Request) : Result :=
  match r with
  | some (.loadClip _) => .copied (s.copiedFor l)
  | _ => .empty

/-- The write of the ABORTED status of a held request is issued; the unit does not wait for it (R172). -/
def State.writeAborted (s : State) (l : Lane) : State :=
  let u := s.units.get l
  let a : Answer := ⟨.aborted, s.abortedResult l (u.block.bind (·.area))⟩
  let full := a.fullWords u.header
  s.issueWrite l a (min full u.header.resLen.toNat) (truncates u.header full)

/-- A lane's held request is ended by its owner (R139, R164, R172), and a completion on its way is dropped (R175). -/
def State.endHeld (s : State) (l : Lane) : State :=
  let s := (s.abortLoad l).abortPorts l
  { s with inFlight := s.inFlight.filter fun m => !m.isHeldDone l }

/-- A window ABORT, or its effect within a SCENE FLUSH (R172, R184). -/
def State.abortUnit (s : State) (l : Lane) : State :=
  match (s.units.get l).state with
  | .idle => s
  | .suspended | .faulted _ => s.moveUnit l .idle
  | .active p =>
    match p with
    | .fetchHeader | .fetchRequest | .readLink | .waitingTurn | .writing => s.moveUnit l .idle
    | .handed =>
      let t := { s with walk := none }
      t.moveUnit l .idle
    | .held => ((s.writeAborted l).endHeld l).moveUnit l .idle

/-- WINDOW_ABORT (R172). Where it has ended a held request, the load engine takes the next load of the queue within the event
(R139). -/
def execWindowAbort (l : Lane) (s : State) : Out :=
  .next (if s.inPhase l .held then (s.abortUnit l).dispatchLoad else s.abortUnit l)

/-! ## Other window accesses (R169, R180, R181, R186) -/

/-- CAUSE_SUMMARY_WRITE (R180): each cause whose bit the value carries is cleared. -/
def execCauseSummaryWrite (l : Lane) (value : BitVec 32) (s : State) : Out :=
  let u := s.units.get l
  .next (s.writeCauses l (u.summary &&& ~~~(value.setWidth 9)) u.enable)

/-- INTERRUPT_ENABLE_WRITE (R181). -/
def execInterruptEnableWrite (l : Lane) (value : BitVec 32) (s : State) : Out :=
  .next (s.writeCauses l (s.units.get l).summary (value.setWidth 9))

/-- SCENE_TIME_READ_LOW (R186): the 4-byte read at 0x008, or, when `wide`, the 8-byte one, which leaves the latch. -/
def execSceneTimeReadLow (wide : Bool) (s : State) : Out :=
  if wide then .next (s.send (.windowRead s.sceneTime))
  else
    let t := { s with latch := some ((s.sceneTime >>> 32).setWidth 32) }
    .next (t.send (.windowRead ((s.sceneTime.setWidth 32).setWidth 64)))

/-- SCENE_TIME_READ_HIGH (R186). -/
def execSceneTimeReadHigh (s : State) : Out :=
  match s.latch with
  | some x =>
    let t := { s with latch := none }
    .next (t.send (.windowRead (x.setWidth 64)))
  | none => .next (s.send (.windowRead (s.sceneTime >>> 32)))

/-- The lane whose list base stands at a window offset (9.9). -/
def listBaseLane (offset : Nat) : Option Lane :=
  if offset = 0x100 then some 0
  else if offset = 0x140 then some 1
  else if offset = 0x180 then some 2
  else if offset = 0x1C0 then some 3
  else none

/-- REGISTER_WRITE (R169, 9.9): a list base is stored; a write to a field that is read-only or is not there is ignored. -/
def execRegisterWrite (offset : Nat) (value : BitVec 64) (s : State) : Out :=
  match listBaseLane offset with
  | some l => .next (s.setUnit l { s.units.get l with listBase := value })
  | none => .next s

/-! ## SCENE FLUSH (R125, R145, R184) -/

/-- Every cause summary is cleared (R184). -/
def State.clearSummaries (s : State) : State := { s with units := s.units.map fun u => { u with summary := 0 } }

/-- SCENE_FLUSH (R184). Every load ends with the unit of its lane, so the load engine takes none in between (R145). While the part
is STARTING it is ignored (R187). -/
def execSceneFlush (s : State) : Out :=
  if s.phase = .ready then
    let s := (List.finRange 4).foldl (fun s l => s.abortUnit l) s
    .next (s.clearSummaries.flushWhere fun _ => true)
  else .next s

end Sys2Proof.Machine
end

