-- ==== Sys2Proof/Machine/Scan.lean ====
section
/-!
DEFINITION. The requests that several owners take in turn (R182, R183): SCAN with SCAN_CLASS_READ, SET_LANE with
SET_LANE_PART.
-/

namespace Sys2Proof.Machine

/-! ## SCAN (R182) -/

/-- The number of slots, ports or triggers of a class. -/
def scanRange : ScanClass → Nat
  | .emitters => 96
  | .clips => 256
  | .ports | .triggers => 8

/-- The words that an entry takes in the result: a free count for each kind of entry (notes/assumptions/7.md). A drained note's
entry, which also carries its read counts, has a count of its own beside a clip's: R182 does not say whether the two are alike. -/
def ScanEntry.words : ScanEntry → Nat
  | .emitter _ _ _ => Config.scanEntryWords 0
  | .clip _ _ _ => Config.scanEntryWords 1
  | .port _ _ _ => Config.scanEntryWords 2
  | .trigger _ _ _ => Config.scanEntryWords 3
  | .note _ => Config.scanEntryWords 4

/-- The words of entries together. -/
def wordsOf (es : List ScanEntry) : Nat := (es.map ScanEntry.words).sum

/-- Where a SCAN begins: its starting point, or emitter slot 0. A class that is none of the four is out of range
(notes/assumptions/23.md). -/
def checkScanStart (first : Option ScanStart) : Checked (ScanClass × Nat) :=
  match first with
  | none => .ok (.emitters, 0)
  | some p =>
    match p.cls with
    | some c => if p.slot < scanRange c then .ok (c, p.slot) else .error (.refuse .range)
    | none => .error (.refuse .range)

/-- A SCAN that passes its checks begins its visit (R182). -/
def State.beginScan (s : State) (l : Lane) (clear : Bool) (p : ScanClass × Nat) : State :=
  { s with walk := some (.scan ⟨l, clear, p.1, p.2, [], 0, (s.units.get l).header.resLen.toNat⟩) }

/-- SCAN (R182). -/
def execScan (l : Lane) (first : Option ScanStart) (clear : Bool) (s : State) : Out :=
  s.onRequest l (.scan first) (fun h => h.clear == clear) fun s =>
    match checkScanStart first with
    | .error a => s.answer l a
    | .ok p => s.beginScan l clear p

/-- A record is in scope for the acting lane (R182). -/
def inScope (acting lane : Lane) : Bool := acting == 0 || acting == lane

/-- The entry that an emitter slot reports. -/
def State.scanEmitter (s : State) (acting : Lane) (i : EntryNo) : Option ScanEntry :=
  match (s.entries.get i).record, s.handleAt i with
  | some r, some h => if inScope acting r.lane && r.attention then some (.emitter h r.state r.causes) else none
  | _, _ => none

/-- The entry that a clip slot reports: its clip, or its drained note. -/
def State.scanClip (s : State) (acting : Lane) (i : ClipNo) : Option ScanEntry :=
  let x := s.clips.get i
  match x.clip, x.note with
  | some c, _ => if inScope acting c.lane && c.attention then some (.clip ⟨i, x.gen⟩ c.state c.causes) else none
  | none, some n => if inScope acting n.lane then some (.note n) else none
  | none, none => none

/-- The entry that a port reports. -/
def State.scanPort (s : State) (acting : Lane) (p : Port) : Option ScanEntry :=
  let r := s.ports.get p
  if inScope acting r.owner && r.attention then some (.port p r.head r.causes) else none

/-- The entry that a trigger reports. -/
def State.scanTrigger (s : State) (acting : Lane) (t : Trigger) : Option ScanEntry :=
  let r := s.triggers.get t
  match r.note with
  | some n => if inScope acting r.owner then some (.trigger t n.latest n.count) else none
  | none => none

/-- The entries of a numbered class from a slot on, each with its slot. -/
def scanFrom {n : Nat} (slot : Nat) (f : Fin n → Option ScanEntry) : List (Nat × ScanEntry) :=
  ((List.finRange n).filter fun i => slot ≤ i.val).filterMap fun i => (f i).map fun e => (i.val, e)

/-- What one owner's event finds in scope (R182): a class, or one port. -/
def State.scanFound (s : State) (w : ScanWalk) : List (Nat × ScanEntry) :=
  match w.cls with
  | .emitters => scanFrom w.slot (s.scanEmitter w.lane)
  | .clips => scanFrom w.slot (s.scanClip w.lane)
  | .ports => (scanFrom w.slot (s.scanPort w.lane)).filter fun x => x.1 == w.slot
  | .triggers => scanFrom w.slot (s.scanTrigger w.lane)

/-- How many entries go into the result beside the continuation word (R182). -/
def fitCount (room : Nat) : Nat → List (Nat × ScanEntry) → Nat
  | _, [] => 0
  | used, x :: xs => if used + x.2.words + 1 ≤ room then 1 + fitCount room (used + x.2.words) xs else 0

/-- A reported record is cleared by its owner (R182). -/
def State.clearScanned (s : State) (e : ScanEntry) : State :=
  match e with
  | .emitter h _ _ => s.modifyRecord h Record.clearAttention
  | .clip h _ _ =>
    match s.clipAt h with
    | some c => s.putClip h.slot c.clearAttention
    | none => s
  | .note n => s.setClip n.handle.slot { s.clips.get n.handle.slot with note := none }
  | .port p _ _ => s.modifyPort p PortRec.clearAttention
  | .trigger t _ _ => s.setTrigger t { s.triggers.get t with note := none }

/-- The end of a SCAN (R182): the result ends with the continuation word, and TRUNCATED is not set. -/
def State.finishScan (s : State) (w : ScanWalk) (next : Continuation) : State :=
  let t := { s with walk := none }
  t.beginWrite w.lane (.done (.scan w.entries next)) (min (w.used + 1) w.room) false

/-- The walk after the class or port it stands at; none after the last trigger. -/
def ScanWalk.onward (w : ScanWalk) : Option ScanWalk :=
  match w.cls with
  | .emitters => some { w with cls := .clips, slot := 0 }
  | .clips => some { w with cls := .ports, slot := 0 }
  | .ports => if w.slot + 1 < 8 then some { w with slot := w.slot + 1 } else some { w with cls := .triggers, slot := 0 }
  | .triggers => none

/-- One owner's event of a SCAN (R182). -/
def State.scanStep (s : State) (w : ScanWalk) : State :=
  let found := s.scanFound w
  let n := fitCount w.room w.used found
  let written := (found.take n).map (·.2)
  let s := if w.clear then written.foldl State.clearScanned s else s
  let w := { w with entries := w.entries ++ written, used := w.used + wordsOf written }
  match found.drop n with
  | (slot, _) :: _ => s.finishScan w (.from w.cls slot)
  | [] =>
    match w.onward with
    | some v => { s with walk := some (.scan v) }
    | none => s.finishScan w .doneAll

/-- SCAN_CLASS_READ (R182). -/
def execScanClassRead (s : State) : Out :=
  match s.walk with
  | some (.scan w) => .next (s.scanStep w)
  | some (.setLane _ _) | none => .next s

/-! ## SET_LANE (R183) -/

/-- The form of a SET_LANE (R183, step 1; notes/assumptions/23.md for more than eight settings). -/
def setLaneForm (q : SetLaneReq) : Bool :=
  (q.window.isSome || q.interval.isSome || !q.triggers.isEmpty) && q.triggers.length ≤ 8 &&
  decide ((q.triggers.map (·.trigger)).Nodup) && q.triggers.all fun t => t.edge != .unknown

/-- The active edge of a setting. -/
def edgeOf : EdgeField → Option Edge
  | .rising => some .rising
  | .falling => some .falling
  | .unknown => none

/-- A trigger setting in range (R183, step 2). -/
def triggerSetting (f : TriggerField) : Option TriggerSetting :=
  match eight f.trigger, four f.owner, edgeOf f.edge with
  | some t, some l, some e => if 1 ≤ f.qualification ∧ f.qualification ≤ 255 then some ⟨t, e, f.qualification, l⟩ else none
  | _, _, _ => none

/-- A host window for a target (R183, step 2): not L0, and the base at most the limit. -/
def windowInRange (target : Lane) (w : Option (BitVec 64 × BitVec 64)) : Bool :=
  match w with
  | some (a, b) => target != 0 && a.toNat ≤ b.toNat
  | none => true

/-- A spent interval in range. -/
def intervalInRange (ms : Option Nat) : Bool :=
  match ms with
  | some n => n ≤ 10000
  | none => true

/-- The parts that are present, in the order in which they are handed on (R183). -/
def laneParts (target : Lane) (q : SetLaneReq) (ts : List TriggerSetting) : List LanePart :=
  (q.window.map fun w => LanePart.window target ⟨w.1, w.2⟩).toList ++
  (q.interval.map fun n => LanePart.interval target n).toList ++
  (if ts.isEmpty then [] else [LanePart.triggers ts])

/-- The checks of a SET_LANE, in the order of R183. -/
def checkSetLane (l : Lane) (q : SetLaneReq) : Checked (List LanePart) := do
  need (setLaneForm q) .badRequest
  let target ← want (four q.target) .range
  need (windowInRange target q.window && intervalInRange q.interval &&
    q.triggers.all fun t => (triggerSetting t).isSome) .range
  need (l == 0) .laneDenied
  return laneParts target q (q.triggers.filterMap triggerSetting)

/-- SET_LANE (R183): its parts are handed to their owners in turn. -/
def execSetLane (l : Lane) (q : SetLaneReq) (s : State) : Out :=
  s.onRequest l (.setLane q) anyFlag fun s =>
    match checkSetLane l q with
    | .error a => s.answer l a
    | .ok parts => { s with walk := some (.setLane l parts) }

/-- The candidate of a trigger whose setting has changed completes within the SET_LANE, at its scene time, if it has been held for
the new time (R58). -/
def State.qualifyNow (s : State) (t : Trigger) : State :=
  if s.phase = .ready ∧ (s.triggers.get t).runOut s.now = true then s.settle t s.now else s

/-- One trigger takes its setting (R58, R183). A candidate that has run out under the old time completes first
(notes/assumptions/32.md); one that has been held for the new time completes within the event. -/
def State.setTriggerSetting (s : State) (x : TriggerSetting) : State :=
  let s := s.qualify x.trigger
  let r := s.triggers.get x.trigger
  (s.setTrigger x.trigger { r with edge := x.edge, qualification := x.qualification, owner := x.owner }).qualifyNow x.trigger

/-- An owner takes its part (R183). -/
def State.takePart (s : State) (p : LanePart) : State :=
  match p with
  | .window target w => s.setUnit target { s.units.get target with window := some w }
  | .interval target ms => { s with spentIntervals := s.spentIntervals.set target ms }
  | .triggers xs => xs.foldl State.setTriggerSetting s

/-- The SET_LANE goes on to its next owner, or completes with DONE when the last part has been taken (R183). -/
def State.afterPart (s : State) (l : Lane) (rest : List LanePart) : State :=
  match rest with
  | [] =>
    let t := { s with walk := none }
    t.answer l (.done .empty)
  | _ :: _ => { s with walk := some (.setLane l rest) }

/-- SET_LANE_PART (R183). -/
def execSetLanePart (s : State) : Out :=
  match s.walk with
  | some (.setLane l (p :: rest)) => .next ((s.takePart p).afterPart l rest)
  | some (.setLane _ []) | some (.scan _) | none => .next s

end Sys2Proof.Machine
end

