-- ==== Sys2Proof/Machine/Startup.lean ====
section
/-!
DEFINITION. Start-up and the bench profile (chapter 10): POWER_ON, BENCH_RESET, PROFILE_READ_DONE, PROFILE_READ_TIMEOUT.
-/

namespace Sys2Proof.Machine

/-! ## Entry into STARTING (R184, R187) -/

/-- A unit after bench reset (R185): the list base and the interrupt enable are kept. -/
def RequestUnit.afterReset (u v : RequestUnit) : RequestUnit := { v with listBase := u.listBase, enable := u.enable }

/-- The units after bench reset. -/
def State.resetUnits (s : State) : Table RequestUnit 4 :=
  (List.finRange 4).foldl (fun t l => t.set l ((s.units.get l).afterReset (t.get l))) initialUnits

/-- A port after bench reset (R166): its exchange tag is kept; the sample last sent stays until the next one. -/
def PortRec.afterReset (r : PortRec) : PortRec := { PortRec.initial r.tag with pin := r.pin }

/-- BENCH_RESET (R184, R187): every block takes its bench-reset values, and the profile read begins. Messages and reads on
their way are dropped (notes/assumptions/12.md). -/
def execBenchReset (s : State) : Out :=
  .next { State.reset with
    phase := .readingProfile s.nextTag s.refTime
    refTime := s.refTime
    units := s.resetUnits
    triggers := s.triggers.map fun r => TriggerRec.initial r.line
    ports := s.ports.map PortRec.afterReset
    clipMem := s.clipMem
    powerOns := s.powerOns
    nextTag := s.nextTag + 1
    sent := s.sent
    pending := s.pending }

/-- POWER_ON (R187): every block takes its power-on values, and the profile read begins. The trigger lines are the bench's,
and clip memory has contents that nothing has set (R128). -/
def execPowerOn (s : State) : Out :=
  .next { State.reset with
    phase := .readingProfile s.nextTag s.refTime
    refTime := s.refTime
    triggers := s.triggers.map fun r => TriggerRec.initial r.line
    powerOns := s.powerOns + 1
    nextTag := s.nextTag + 1
    sent := s.sent
    pending := s.pending }

/-! ## The profile's entries (10.2) -/

/-- The byte at an offset; 0 beyond the end. -/
def byteAt (bytes : List Byte) (n : Nat) : Nat := (bytes.getD n 0).toNat

/-- The little-endian value of `len` bytes from an offset. -/
def fieldAt (bytes : List Byte) (offset len : Nat) : Nat := leNat ((bytes.drop offset).take len)

/-- A number below `n`, when it is one. -/
def below (n x : Nat) : Option (Fin n) := if h : x < n then some ⟨x, h⟩ else none

/-- An entry of a PORTS section. -/
structure PortSetting where
  port : Port
  clock : Clock
  owner : Lane
  budget : Nat
  deriving DecidableEq, Repr

/-- An entry of a LANES section. -/
structure LaneSetting where
  lane : Lane
  window : Option HostWindow
  interval : Nat
  deriving DecidableEq, Repr

/-- The clock source of a PORTS entry: kind, divider or leader, declared rate. -/
def profileClock (kind value rate : Nat) : Option Clock :=
  match kind with
  | 0 => if (value = 1 ∨ value = 2 ∨ value = 4 ∨ value = 8 ∨ value = 16) ∧ rate = 0 then some (.synth value) else none
  | 1 => if rate = 0 then (below 8 value).map Clock.follow else none
  | 2 => if value = 0 ∧ 1000000 ≤ rate ∧ rate ≤ 80000000 then some (.external rate) else none
  | _ => none

/-- An entry of a PORTS section, when its values are in range and its zero field is zero. -/
def portSetting (e : List Byte) : Option PortSetting := do
  let p ← below 8 (byteAt e 0)
  let c ← profileClock (byteAt e 1) (byteAt e 2) (fieldAt e 8 4)
  let l ← below 4 (byteAt e 3)
  let budget := fieldAt e 4 2
  if 256 ≤ budget ∧ budget ≤ 8192 ∧ fieldAt e 6 2 = 0 then some ⟨p, c, l, budget⟩ else none

/-- The active edge of a TRIGGERS entry. -/
def profileEdge : Nat → Option Edge
  | 0 => some .rising
  | 1 => some .falling
  | _ => none

/-- An entry of a TRIGGERS section. -/
def profileTrigger (e : List Byte) : Option TriggerSetting := do
  let t ← below 8 (byteAt e 0)
  let edge ← profileEdge (byteAt e 1)
  let l ← below 4 (byteAt e 3)
  if 1 ≤ byteAt e 2 then some ⟨t, edge, byteAt e 2, l⟩ else none

/-- The window of a LANES entry (R189): flag 0 with base and limit 0 is the unrestricted one, which L0 reads as none; flag 1
gives it, and not for L0. -/
def profileWindow (l : Lane) (flag base limit : Nat) : Option (Option HostWindow) :=
  match flag with
  | 0 => if base = 0 ∧ limit = 0 then some (if l = 0 then none else some .unrestricted) else none
  | 1 => if l ≠ 0 ∧ base ≤ limit then some (some ⟨BitVec.ofNat 64 base, BitVec.ofNat 64 limit⟩) else none
  | _ => none

/-- An entry of a LANES section. -/
def laneSetting (e : List Byte) : Option LaneSetting := do
  let l ← below 4 (byteAt e 0)
  let w ← profileWindow l (byteAt e 1) (fieldAt e 8 8) (fieldAt e 16 8)
  if fieldAt e 2 2 ≤ 10000 ∧ fieldAt e 4 4 = 0 then some ⟨l, w, fieldAt e 2 2⟩ else none

/-! ## Sections (R189) -/

/-- The entries of a body of the given count, one after another. -/
def entriesOf (size : Nat) : Nat → List Byte → List (List Byte)
  | 0, _ => []
  | n + 1, bytes => bytes.take size :: entriesOf size n (bytes.drop size)

/-- The settings of a body: its length a whole multiple of the entry size and not 0, every entry good, no two entries naming
the same item. -/
def settingsOf {α : Type} (size : Nat) (read : List Byte → Option α) (name : α → Nat) (body : List Byte) :
    Option (List α) :=
  if body.length = 0 ∨ body.length % size ≠ 0 then none
  else
    match (entriesOf size (body.length / size) body).mapM read with
    | some xs => if (xs.map name).Nodup then some xs else none
    | none => none

/-- A port takes an entry of the profile. -/
def State.profilePort (s : State) (x : PortSetting) : State :=
  s.modifyPort x.port fun r => { r with clock := x.clock, owner := x.owner, budget := x.budget }

/-- No port follows itself or a follower (R148, R189). -/
def State.followsWell (s : State) : Bool :=
  (List.finRange 8).all fun p => match (s.ports.get p).clock with
    | .follow k => k != p && (match (s.ports.get k).clock with
      | .follow _ => false
      | .synth _ | .external _ => true)
    | .synth _ | .external _ => true

/-- A trigger takes an entry of the profile. -/
def State.profileTriggerSet (s : State) (x : TriggerSetting) : State :=
  s.setTrigger x.trigger
    { s.triggers.get x.trigger with edge := x.edge, qualification := x.qualification, owner := x.owner }

/-- A lane takes an entry of the profile. -/
def State.profileLane (s : State) (x : LaneSetting) : State :=
  let t := s.setUnit x.lane { s.units.get x.lane with window := x.window }
  { t with spentIntervals := t.spentIntervals.set x.lane x.interval }

/-- The state with a PORTS section applied, unless a port would follow badly (R189). -/
def State.portsSection (s : State) (xs : List PortSetting) : Option State :=
  let t := xs.foldl State.profilePort s
  if t.followsWell then some t else none

/-- A section judged whole and applied; none when it is skipped (R189). -/
def State.applySection (s : State) (kind spare : Nat) (body : List Byte) : Option State :=
  if spare ≠ 0 then none
  else
    match kind with
    | 1 => (settingsOf 12 portSetting (fun x => x.port.val) body).bind s.portsSection
    | 2 => (settingsOf 4 profileTrigger (fun x => x.trigger.val) body).map fun xs => xs.foldl State.profileTriggerSet s
    | 3 => (settingsOf 24 laneSetting (fun x => x.lane.val) body).map fun xs => xs.foldl State.profileLane s
    | _ => none

/-- A skipped section sets PROFILE_PARTIAL (R189). -/
def State.skipSection (s : State) : State := { s with profilePartial := true }

/-- The sections of an accepted block, up to the section count (R189). A section that would reach past the block length is
skipped with every section after it. -/
def State.takeSections : Nat → List Byte → State → State
  | 0, _, s => s
  | n + 1, rest, s =>
    let len := fieldAt rest 2 2
    if rest.length < 4 ∨ rest.length < 4 + len then s.skipSection
    else
      let t := match s.applySection (byteAt rest 0) (byteAt rest 1) ((rest.drop 4).take len) with
        | some t => t
        | none => s.skipSection
      State.takeSections n (rest.drop (4 + len)) t

/-! ## The profile as a whole (R188, R190) -/

/-- The block passes the five checks of R188; fewer bytes than the block length are an absent profile
(notes/assumptions/27.md). -/
def profileGood (bytes : List Byte) : Bool :=
  let len := fieldAt bytes 0 2
  16 ≤ bytes.length && 16 ≤ len && len ≤ 4096 && len ≤ bytes.length && fieldAt bytes 2 2 == 1 &&
  (crc32 ((bytes.take len).drop 8)).toNat == fieldAt bytes 4 4 && fieldAt bytes 10 6 == 0

/-- The head probes begin on all eight heads within one event (R190). -/
def State.beginProbes (s : State) : State :=
  let s := { s with phase := .probing }
  (List.finRange 8).foldl (fun s p => s.beginExchange p .probe .startUp false) s

/-- The profile is set aside: every setting keeps its default (R188). -/
def State.profileAside (s : State) : State := { s with profileDefaults := true }

/-- The profile is settled from what the flash gave for a block of the given length (R188, R189). The section count of the header is
taken as it stands, also above the 255 of the header table of 10.2, for none of the five checks of R188 covers it (DESIGN
CHOICE, notes/assumptions/40.md). -/
def State.settleProfile (s : State) (length : Nat) (f : FlashRead) : State :=
  match f with
  | .failed => s.profileAside
  | .data bytes =>
    if length ≤ bytes.length && profileGood bytes then
      State.takeSections (fieldAt bytes 8 2) ((bytes.take (fieldAt bytes 0 2)).drop 16) s
    else s.profileAside

/-- The profile header has been read (R188): the read of as many bytes as its block length gives is issued, timed from now. A failed
read, or one of fewer than the 16 bytes of the header, is an absent profile. -/
def State.takeProfileHeader (s : State) (f : FlashRead) : State :=
  match f with
  | .failed => s.profileAside.beginProbes
  | .data bytes =>
    if 16 ≤ bytes.length then { s with phase := .readingBlock s.nextTag s.refTime (fieldAt bytes 0 2) }.bumpTag
    else s.profileAside.beginProbes

/-- Whether a read of the flash issued at the given period has not yet run out of its 5 ms (R188). -/
def State.flashInTime (s : State) (issuedAt : Nat) : Bool := s.refTime < issuedAt + Config.answerPeriods

/-- PROFILE_READ_DONE (R188 to R190): the read in flight, of the header or of the block, has answered in time. -/
def execProfileReadDone (tag : Nat) (flash : FlashRead) (s : State) : Out :=
  match s.phase with
  | .readingProfile n t => if n = tag ∧ s.flashInTime t = true then .next (s.takeProfileHeader flash) else .next s
  | .readingBlock n t length =>
    if n = tag ∧ s.flashInTime t = true then .next ((s.settleProfile length flash).beginProbes) else .next s
  | .probing | .ready => .next s

/-- PROFILE_READ_TIMEOUT (R188): the flash has not answered the read in flight within 5 ms of its issue. -/
def execProfileReadTimeout (s : State) : Out :=
  match s.phase with
  | .readingProfile _ t | .readingBlock _ t _ =>
    if s.flashInTime t then .next s else .next s.profileAside.beginProbes
  | .probing | .ready => .next s

end Sys2Proof.Machine
end

