-- ==== Sys2Proof/Machine/Tick.lean ====
section
/-!
DEFINITION. One period of the bench reference, which is what a step does on an empty queue (notes/assumptions/1.md): scene
time, the raising of expiries, fade positions (R37, R43, R44).
-/

namespace Sys2Proof.Machine

/-- The pending expiries whose time has come are raised (R44). -/
def State.raiseDue (s : State) : State :=
  { s with
    inFlight := s.inFlight ++ (s.timer.filter fun x => x.due ≤ s.now).map fun x => .expiry x.kind
    timer := s.timer.filter fun x => !decide (x.due ≤ s.now) }

/-- The fade position of a path after a tick (R37). -/
def State.tickPath (s : State) (p : Path) : Path :=
  match p.vals.fade, p.pos with
  | some x, some pos =>
    match s.fadeAt x.profile with
    | some f => { p with pos := some (f.curve.advance pos) }
    | none => p
  | _, _ => p

/-- The fade positions of a record advance while it is ON_AIR or FADING (R37). -/
def State.tickRecord (s : State) (r : Record) : Record :=
  if r.state.sounds then { r with paths := r.paths.map s.tickPath } else r

/-- Every fade position advances with scene time (R37). -/
def State.tickFades (s : State) : State :=
  { s with entries := s.entries.map fun e => { e with record := e.record.map s.tickRecord } }

/-- One period of the bench reference. Scene time advances only while the part is READY (R43, R187). -/
def State.tick (s : State) : State :=
  let s := { s with refTime := s.refTime + 1 }
  if s.phase = .ready then
    let s := { s with sceneTime := s.sceneTime + 1 }
    s.raiseDue.tickFades
  else s

end Sys2Proof.Machine
end

