-- ==== Sys2Proof/Machine/Dispatch.lean ====
section
/-!
DEFINITION. The dispatch of the commands to their meanings: one arm per constructor of Instr.
-/

namespace Sys2Proof.Machine

def exec (i : Instr) (s : State) : Host.Outcome State Fault Refusal :=
  match i with
  | .powerOn => Sys2Proof.Machine.execPowerOn s
  | .benchReset => Sys2Proof.Machine.execBenchReset s
  | .sceneFlush => Sys2Proof.Machine.execSceneFlush s
  | .windowStart l => Sys2Proof.Machine.execWindowStart l s
  | .windowResume l => Sys2Proof.Machine.execWindowResume l s
  | .windowAbort l => Sys2Proof.Machine.execWindowAbort l s
  | .listCommandInvalid l value => Sys2Proof.Machine.execListCommandInvalid l value s
  | .causeSummaryWrite l value => Sys2Proof.Machine.execCauseSummaryWrite l value s
  | .interruptEnableWrite l value => Sys2Proof.Machine.execInterruptEnableWrite l value s
  | .sceneTimeReadLow wide => Sys2Proof.Machine.execSceneTimeReadLow wide s
  | .sceneTimeReadHigh => Sys2Proof.Machine.execSceneTimeReadHigh s
  | .registerWrite offset value => Sys2Proof.Machine.execRegisterWrite offset value s
  | .profileReadDone tag flash => Sys2Proof.Machine.execProfileReadDone tag flash s
  | .profileReadTimeout => Sys2Proof.Machine.execProfileReadTimeout s
  | .fetchHeaderDone l tag header => Sys2Proof.Machine.execFetchHeaderDone l tag header s
  | .fetchRequestDone l tag area => Sys2Proof.Machine.execFetchRequestDone l tag area s
  | .fetchReadFailed l tag => Sys2Proof.Machine.execFetchReadFailed l tag s
  | .resumeLinkReadDone l tag link => Sys2Proof.Machine.execResumeLinkReadDone l tag link s
  | .handOver => Sys2Proof.Machine.execHandOver s
  | .heldRequestComplete l => Sys2Proof.Machine.execHeldRequestComplete l s
  | .writeDone l tag => Sys2Proof.Machine.execWriteDone l tag s
  | .writeFailed l tag => Sys2Proof.Machine.execWriteFailed l tag s
  | .nop l => Sys2Proof.Machine.execNop l s
  | .create l q lateOk => Sys2Proof.Machine.execCreate l q lateOk s
  | .start l q lateOk => Sys2Proof.Machine.execStart l q lateOk s
  | .modify l q => Sys2Proof.Machine.execModify l q s
  | .pause l emitter => Sys2Proof.Machine.execPause l emitter s
  | .resume l emitter => Sys2Proof.Machine.execResume l emitter s
  | .retire l q => Sys2Proof.Machine.execRetire l q s
  | .queryEmitter l emitter clear => Sys2Proof.Machine.execQueryEmitter l emitter clear s
  | .defineFade l q => Sys2Proof.Machine.execDefineFade l q s
  | .retireFade l profile => Sys2Proof.Machine.execRetireFade l profile s
  | .flushLane l lane => Sys2Proof.Machine.execFlushLane l lane s
  | .defineClip l q => Sys2Proof.Machine.execDefineClip l q s
  | .loadClip l q => Sys2Proof.Machine.execLoadClip l q s
  | .loadCopyEnd tag failed => Sys2Proof.Machine.execLoadCopyEnd tag failed s
  | .retireClip l clip => Sys2Proof.Machine.execRetireClip l clip s
  | .queryClip l clip clear => Sys2Proof.Machine.execQueryClip l clip clear s
  | .configurePort l q => Sys2Proof.Machine.execConfigurePort l q s
  | .restartPort l port => Sys2Proof.Machine.execRestartPort l port s
  | .setOutput l q => Sys2Proof.Machine.execSetOutput l q s
  | .queryPort l port clear => Sys2Proof.Machine.execQueryPort l port clear s
  | .scan l first clear => Sys2Proof.Machine.execScan l first clear s
  | .scanClassRead => Sys2Proof.Machine.execScanClassRead s
  | .setLane l q => Sys2Proof.Machine.execSetLane l q s
  | .setLanePart => Sys2Proof.Machine.execSetLanePart s
  | .setTime l time => Sys2Proof.Machine.execSetTime l time s
  | .spentExpiry h => Sys2Proof.Machine.execSpentExpiry h s
  | .startLeadExpiry time => Sys2Proof.Machine.execStartLeadExpiry time s
  | .startTimeExpiry h => Sys2Proof.Machine.execStartTimeExpiry h s
  | .stopPointExpiry h time => Sys2Proof.Machine.execStopPointExpiry h time s
  | .atApplyExpiry h number => Sys2Proof.Machine.execAtApplyExpiry h number s
  | .nextFrameApplyExpiry h number => Sys2Proof.Machine.execNextFrameApplyExpiry h number s
  | .rampEndExpiry h => Sys2Proof.Machine.execRampEndExpiry h s
  | .fadeReplacementExpiry h => Sys2Proof.Machine.execFadeReplacementExpiry h s
  | .outputChangeExpiry p => Sys2Proof.Machine.execOutputChangeExpiry p s
  | .triggerLineChange t high => Sys2Proof.Machine.execTriggerLineChange t high s
  | .triggerQualified t => Sys2Proof.Machine.execTriggerQualified t s
  | .triggerEdge t time => Sys2Proof.Machine.execTriggerEdge t time s
  | .grant => Sys2Proof.Machine.execGrant s
  | .runReadDone n tag outcome => Sys2Proof.Machine.execRunReadDone n tag outcome s
  | .primedReport h => Sys2Proof.Machine.execPrimedReport h s
  | .slotOutputSample n => Sys2Proof.Machine.execSlotOutputSample n s
  | .endOfClipReport h => Sys2Proof.Machine.execEndOfClipReport h s
  | .cueCrossing h line time => Sys2Proof.Machine.execCueCrossing h line time s
  | .cuePulseEnd q => Sys2Proof.Machine.execCuePulseEnd q s
  | .demandReadDone n tag outcome => Sys2Proof.Machine.execDemandReadDone n tag outcome s
  | .recoveredReport h => Sys2Proof.Machine.execRecoveredReport h s
  | .failureReport h => Sys2Proof.Machine.execFailureReport h s
  | .readCountMessage c outcome => Sys2Proof.Machine.execReadCountMessage c outcome s
  | .clipReferenceRelease c => Sys2Proof.Machine.execClipReferenceRelease c s
  | .portJoin p h weight => Sys2Proof.Machine.execPortJoin p h weight s
  | .portWeight p h weight => Sys2Proof.Machine.execPortWeight p h weight s
  | .portLeave p h => Sys2Proof.Machine.execPortLeave p h s
  | .reservationClaim p h join increase => Sys2Proof.Machine.execReservationClaim p h join increase s
  | .reservationRelease p h => Sys2Proof.Machine.execReservationRelease p h s
  | .portOutputSample p => Sys2Proof.Machine.execPortOutputSample p s
  | .probeAnswer p tag identity maxRate => Sys2Proof.Machine.execProbeAnswer p tag identity maxRate s
  | .setRateAck p tag => Sys2Proof.Machine.execSetRateAck p tag s
  | .headExchangeTimeout p => Sys2Proof.Machine.execHeadExchangeTimeout p s
  | .headStatusMessage p ready condition detail => Sys2Proof.Machine.execHeadStatusMessage p ready condition detail s
  | .copyHostReadDone tag bytes => Sys2Proof.Machine.execCopyHostReadDone tag bytes s

end Sys2Proof.Machine
end

