-- ==== Sys2Proof/Machine/Step.lean ====
section
/-!
DEFINITION. One step: the command at the front of the queue is carried out on the state with the queue's rest; on an empty
queue one period of the bench reference goes by (notes/assumptions/1.md). No row of the table gives bits, so no word spells a
command and withFetchWord puts none into the queue (notes/assumptions/30.md).
-/

namespace Sys2Proof.Machine

/-- The state with another queue. -/
def State.withPending (s : State) (q : List Instr) : State := { s with pending := q }

/-- One step of the part. -/
def step (s : State) : Host.Outcome State Fault Refusal :=
  match s.pending with
  | [] => .next s.tick
  | c :: rest => exec c (s.withPending rest)

/-- The state with the command that a word spells put at the front of its queue; unchanged where the word spells none. -/
def State.withFetchWord (s : State) (nbits w : Nat) : State :=
  match decodeTableWord nbits w with
  | some c => s.withPending (c :: s.pending)
  | none => s

end Sys2Proof.Machine
end

