-- ==== Sys2Proof/Safety.lean ====
section
/-!
DEFINITION. What stays true of the part whatever it is told: the properties that the obligations state as invariants of every
step; and the words in which the obligations speak of a request that a lane has handed over.
-/

namespace Sys2Proof

open Machine

/-! ## The form and the fields of a request (R14, R93, R168) -/

/-- The fields of a path record hold values of their encodings (R168, 9.9). -/
def PathField.Encoded (f : PathField) : Prop :=
  (f.fadePresent = 0 ∨ f.fadePresent = 1) ∧ f.spare = 0 ∧ (f.fadePresent = 0 → f.fade = ⟨0, 0⟩)

/-- A start point holds a value of its encoding (R168, 9.9). -/
def StartField.Encoded (f : StartField) : Prop :=
  (f.kind = 0 ∨ f.kind = 1) ∧ f.value = 0 ∨ f.kind = 2 ∨ f.kind = 3

/-- The fields of a request whose encodings 9.9 fixes hold values of those encodings (R168). -/
def Request.Encoded : Request → Prop
  | .create q =>
    (∀ f ∈ q.paths, PathField.Encoded f) ∧ StartField.Encoded q.start ∧ q.stop.kind.toNat ≤ 2 ∧ q.cue.kind.toNat ≤ 2
  | .start q => StartField.Encoded q.start
  | .modify q => (∀ ps, q.paths = some ps → ∀ f ∈ ps, PathField.Encoded f) ∧ q.stop.kind.toNat ≤ 2 ∧ q.cue.kind.toNat ≤ 2
  | _ => True

/-- The values of a path record lie in the fixed ranges of R14, step 2, and its fade names a profile slot (R36). That the index
byte keeps its range also where the record carries no fade is the model's choice (9.9; notes/assumptions/55.md). -/
def PathField.Ranged (f : PathField) : Prop :=
  f.delay.toNat ≤ 8191 ∧ f.weight.toNat ≤ 1023 ∧ f.phase.toNat ≤ 359 ∧ -200000 ≤ f.doppler.toInt ∧
  f.doppler.toInt ≤ 200000 ∧ f.fadeIndex.toNat ≤ 63 ∧ (f.fadePresent = 1 → f.fade.slot.toNat < 16)

/-- The checks of a MODIFY have found in `x` what the request `q` names and carries (R93): the emitter, the apply point, and for
each modifiable field the new value, or that it is left as it is. -/
def ModifyReq.Gives (q : ModifyReq) (x : ModifyFound) : Prop :=
  x.handle.slot.val = q.emitter.slot.toNat ∧ x.handle.gen = q.emitter.gen ∧
  (q.apply = .now ∧ x.apply = none ∨ q.apply = .nextFrame ∧ x.apply = some .nextFrame ∨
    (∃ t, q.apply = .at t ∧ x.apply = some (.at t)) ∨
    ∃ b, ∃ t : Trigger, q.apply = .on b ∧ t.val = b.toNat ∧ x.apply = some (.on t)) ∧
  x.values.paths = q.paths.map (fun ps => ps.map PathField.vals) ∧ x.values.carrier = q.carrier.map BitVec.toInt ∧
  x.values.ports = q.ports ∧
  (q.loop = none ∧ x.values.loop = none ∨ q.loop = some .once ∧ x.values.loop = some .once ∨
    ∃ a b, q.loop = some (.loop a b) ∧ x.values.loop = some (.loop a.toNat b.toNat)) ∧
  (q.stop.kind = 0 → x.values.stop = .keep) ∧ (q.stop.kind = 1 → x.values.stop = .set q.stop.time) ∧
  (q.stop.kind = 2 → x.values.stop = .remove) ∧
  (q.cue.kind = 0 → x.values.cue = .keep) ∧
  (q.cue.kind = 1 → ∃ n : CueLine, n.val = q.cue.line.toNat ∧ x.values.cue = .set ⟨q.cue.sample.toNat, n⟩) ∧
  (q.cue.kind = 2 → x.values.cue = .remove)

end Sys2Proof

namespace Sys2Proof.Machine

/-! ## Invariants, and the words of the statements -/

/-- A clip whose extent lies in the 65,536 pages and holds its length (R130, R133). -/
def Clip.sound (c : Clip) : Prop := c.basePage + c.pageCount ≤ 65536 ∧ c.length ≤ c.pageCount * Config.pageSamples

/-- Clip memory is in its canonical form, and every clip of the catalog lies inside it (R128, R130). -/
def State.memorySound (s : State) : Prop :=
  Memory.wf s.clipMem ∧ ∀ i c, (s.clips.get i).clip = some c → c.sound

/-- The sum of the clip rates of the held slots is at most the fetch rate budget (R67). -/
def State.rateSound (s : State) : Prop := s.rateInUse ≤ Config.rateBudget

/-- No entry, clip slot or profile slot has generation 0 (R7, R36, R131). -/
def State.generationsSound (s : State) : Prop :=
  (∀ i, (s.entries.get i).gen ≠ 0) ∧ (∀ i, (s.clips.get i).gen ≠ 0) ∧ ∀ i, (s.fades.get i).gen ≠ 0

/-- What holds of the part while it is STARTING (R43, R187): scene time stands at 0, no unit walks, nothing is pending or on
its way, the cue lines are IDLE, no record, clip or held slot exists, and the only head exchanges are those of start-up. -/
structure State.Quiet (s : State) : Prop where
  sceneTime : s.sceneTime = 0
  units : ∀ l, (s.units.get l).state = .idle
  walk : s.walk = none
  timer : s.timer = []
  inFlight : s.inFlight = []
  cues : ∀ q, s.cues.get q = .idle
  entries : ∀ i, (s.entries.get i).record = none
  slots : ∀ n, (s.slots.get n).owner = none ∧ (s.slots.get n).fetch = none
  strayReads : s.strayReads = []
  grantQueue : s.grantQueue = []
  clips : ∀ i, (s.clips.get i).clip = none
  copy : s.copy = none
  exchanges : ∀ p x, (s.ports.get p).exchange = some x → x.purpose = .startUp
  jobs : ∀ p, (s.ports.get p).job = none

/-- While the part is not READY it is quiet. -/
def State.startingQuiet (s : State) : Prop := s.phase ≠ .ready → s.Quiet

/-- No port follows itself or a follower (R148). -/
def State.followSound (s : State) : Prop :=
  ∀ p k, (s.ports.get p).clock = .follow k → k ≠ p ∧ ∀ j, (s.ports.get k).clock ≠ .follow j

/-- The supervising lane has no host window (R177), and no SET_LANE in progress gives it one (R183). -/
def State.supervisorFree (s : State) : Prop :=
  (s.units.get 0).window = none ∧
  ∀ l parts target w, s.walk = some (.setLane l parts) → LanePart.window target w ∈ parts → target ≠ 0

/-- A lane has handed a request to its owner, with a header for which `flag` holds, and no SCAN or SET_LANE stands between two
of its owners (R174). -/
def State.Handed (s : State) (l : Lane) (r : Request) (flag : Header → Bool) : Prop :=
  s.walk = none ∧ (s.units.get l).state = .active .handed ∧
    ∃ b, (s.units.get l).block = some b ∧ b.area = some r ∧ flag b.header = true

/-- Some other port's exchange of the CONFIGURE_PORT at `home` than that of `p` is in flight (R161). -/
def State.othersConfiguring (s : State) (j : ConfigureJob) (home p : Port) : Prop :=
  ∃ k ∈ j.told, k ≠ p ∧ s.configuring j.lane home k = true

/-- The answer of a CONFIGURE_PORT whose last exchange has ended in the state `u` (R161): DONE when no told port was silent, and
HEAD_NO_RESPONSE naming the lowest-numbered silent port otherwise; in both cases with the head states of the ports told. -/
def State.ConfigureEnds (u : State) (j : ConfigureJob) (a : Answer) : Prop :=
  (j.silent = [] → a = ⟨.done, .heads (j.told.map fun p => (p, (u.ports.get p).head))⟩) ∧
  ∀ q ∈ j.silent, (∀ k ∈ j.silent, q ≤ k) →
    a = ⟨.headNoResponse, .silent q (j.told.map fun p => (p, (u.ports.get p).head))⟩

/-- The exchange that ends at `p` leaves no other port of start-up with one in flight (R191). -/
def State.lastToStart (s : State) (p : Port) : Prop := ∀ k, k ≠ p → (s.ports.get k).starting = false

/-- The part in the state `u` has become READY from `s` (R191): each trigger's settled level is its line's, with no candidate. -/
def State.BecameReady (s u : State) : Prop :=
  u.phase = .ready ∧
  ∀ t, u.triggers.get t = { s.triggers.get t with settled := (s.triggers.get t).line, candidate := none }

/-- The record `r` of handle `h` has gone SPENT with a cause on the way from `s` to `t` (R6, R21, R117, R118): with a spent
interval above 0 its final record stands in the entry; with the interval 0 the entry is FREE. -/
def State.WentSpent (s t : State) (h : EmitterHandle) (r : Record) (cause : SpentCause) : Prop :=
  (t.entries.get h.slot).gen = (s.entries.get h.slot).gen ∧ (t.entries.get h.slot).unused = (s.entries.get h.slot).unused ∧
  (s.spentIntervals.get r.lane = 0 → (t.entries.get h.slot).record = none) ∧
  (s.spentIntervals.get r.lane ≠ 0 → ∃ q, t.recordAt h = some q ∧ q.state = .spent ∧
    q.spent = some ⟨cause, r.playPosition⟩ ∧ q.staged = none ∧ q.lane = r.lane ∧ q.clip = r.clip ∧ q.ports = r.ports ∧
    q.pathVals = r.pathVals ∧ q.condition = r.condition ∧
    (q.attention, q.causes) =
      if cause.unrequested then (true, r.causes.addSpentUnrequested) else (r.attention, r.causes))

/-- The entries other than one slot's are as they were. -/
def State.otherEntries (s t : State) (i : EntryNo) : Prop := ∀ k, k ≠ i → t.entries.get k = s.entries.get k

/-- The clip slots other than one are as they were. -/
def State.otherClips (s t : State) (i : ClipNo) : Prop := ∀ k, k ≠ i → t.clips.get k = s.clips.get k

/-- The ports other than one are as they were. -/
def State.otherPorts (s t : State) (p : Port) : Prop := ∀ k, k ≠ p → t.ports.get k = s.ports.get k

/-- The units other than one lane's are as they were. -/
def State.otherUnits (s t : State) (l : Lane) : Prop := ∀ k, k ≠ l → t.units.get k = s.units.get k

/-- PORT_ATTENTION has been set for lane `l` on the way from `s` to `u` (R158, R181), with the interrupt that this sends, and of
the units nothing else has changed. -/
def State.PortAttentionSet (s u : State) (l : Lane) : Prop :=
  u.units.get l = { s.units.get l with summary := (s.units.get l).summary ||| Cause.portAttention.bit } ∧ s.otherUnits u l ∧
  u.sent = (s.setCause l .portAttention).sent

/-- The number of one lane's entries, in STAGED through FAULTED, that hold a reference to the given clip (R140). -/
def State.laneHolders (s : State) (c : ClipHandle) (l : Lane) : Nat :=
  (s.records.filter fun r => r.state.isHolding && r.clip == c && r.lane == l).length

/-! ## The clock source of a CONFIGURE_PORT (R159) -/

/-- The clock source that the checks of a CONFIGURE_PORT of port `p` have found is the one of the request, and has passed them
(R159): a divider or rate in range, or a leader that is fitted, is not this port and is no follower, this port having none. -/
def State.ClockTaken (s : State) (p : Port) (f : ClockField) (c : Clock) : Prop :=
  (∃ d, f = .synth d ∧ c = .synth d ∧ (d = 1 ∨ d = 2 ∨ d = 4 ∨ d = 8 ∨ d = 16)) ∨
  (∃ n, f = .external n ∧ c = .external n ∧ 1000000 ≤ n ∧ n ≤ 80000000) ∨
  ∃ b, ∃ k : Port, f = .follow b ∧ c = .follow k ∧ k.val = b.toNat ∧ k ≠ p ∧ (s.ports.get k).head ≠ .unfitted ∧
    (∀ j, (s.ports.get k).clock ≠ .follow j) ∧ ∀ j, (s.ports.get j).clock ≠ .follow p

/-! ## The start of a record (R18, R49 to R53) -/

/-- The START of a STAGED record `r` of handle `h` with the start point `p` has made it `k` on the way from `s` to `u`. NOW
queues it with the count as its start reference; ON lets it join the trigger's arm list. AT lets it join the time arm set,
ordered by start time, and asks for a start lead 20,000 ticks before its time; within the lead it is queued with a
start-time expiry, behind the records of the time arm set with the same start time, which the same lead covers; late under
LATE_OK, it is queued with its start time as the reference. -/
def State.Started (s u : State) (h : EmitterHandle) (r k : Record) (p : StartPoint) : Prop :=
  u.recordAt h = some k ∧
  (p = .now → k = { r with startPoint := some p, state := .waiting, startRef := some s.now } ∧ s.otherEntries u h.slot ∧
    u = { s with entries := u.entries, grantQueue := s.grantQueue ++ [h] }) ∧
  (∀ t, p = .on t → k = { r with startPoint := some p, state := .armed } ∧ s.otherEntries u h.slot ∧
    u.triggers.get t = { s.triggers.get t with armList := (s.triggers.get t).armList ++ [h] } ∧
    (∀ j, j ≠ t → u.triggers.get j = s.triggers.get j) ∧ u = { s with entries := u.entries, triggers := u.triggers }) ∧
  (∀ t, p = .at t → ticks t ≤ s.now →
    k = { r with startPoint := some p, state := .waiting, startRef := some (ticks t), takenLate := true } ∧
    s.otherEntries u h.slot ∧ u = { s with entries := u.entries, grantQueue := s.grantQueue ++ [h] }) ∧
  (∀ t, p = .at t → s.now < ticks t - 20000 →
    k = { r with startPoint := some p, state := .armed, startRef := some (ticks t) } ∧ s.otherEntries u h.slot ∧
    h ∈ u.armSet ∧ (h ∉ s.armSet → s.armSet.Pairwise (fun a b => s.armTime a ≤ s.armTime b) →
      u.armSet = s.armSet.filter (fun j => decide (s.armTime j ≤ t.toNat)) ++
        h :: s.armSet.filter fun j => decide (t.toNat < s.armTime j)) ∧
    u = { s with
      entries := u.entries, armSet := u.armSet, timer := s.timer ++ [⟨.startLead h t, ticks t - 20000⟩] }) ∧
  ∀ t, p = .at t → ticks t - 20000 ≤ s.now → s.now < ticks t →
    k = { r with startPoint := some p, state := .waiting, startRef := some (ticks t) } ∧
    (∀ j q, j ∈ s.armSet → s.armedAt t j = true → s.recordAt j = some q → ⟨.startTime j, ticks t⟩ ∈ u.timer ∧
      u.recordAt j = some { q with state := .waiting, startRef := some (ticks t) }) ∧
    (∀ i, i ≠ h.slot → (∀ j ∈ s.armSet, j.slot = i → s.armedAt t j = false) → u.entries.get i = s.entries.get i) ∧
    h ∈ u.grantQueue ∧ ⟨.startTime h, ticks t⟩ ∈ u.timer ∧
    (∀ due, due = s.armSet.filter (s.armedAt t) ++ [h] → s.armSet.Nodup → h ∉ s.armSet →
      s.armSet.Pairwise (fun a b => s.armTime a ≤ s.armTime b) →
      u.grantQueue = s.grantQueue ++ due ∧ u.armSet = s.armSet.filter (fun j => !s.armedAt t j) ∧
      u.timer = (s.timer.filter fun x => !(due.any fun j => x.kind == .startLead j t)) ++
        due.map fun j => ⟨.startTime j, ticks t⟩) ∧
    u = { s with entries := u.entries, armSet := u.armSet, grantQueue := u.grantQueue, timer := u.timer }

/-! ## Runs and priming (R73, R77) -/

/-- `limit` is the length of the longest run that may begin at position `p` of a clip of `len` samples (R77): 1,024 samples, up
to the end of the page, and up to the loop end, or, for ONCE and beyond the loop end, the clip length. -/
def IsRunLimit (m : LoopMode) (len p limit : Nat) : Prop :=
  ∃ stop, limit = min 1024 (min (16384 - p % 16384) (stop - p)) ∧ (m = .once → stop = len) ∧
    ∀ a b, m = .loop a b → (p < b → stop = b) ∧ (b ≤ p → stop = len)

/-- The slot `x` of record `r`, of handle `h` and clip `c`, has become `y`, and the next transfer number has gone from `tag` to
`next`, in issuing the next run (R77, R83). A RUNNING slot with no run in flight, of which a run can still come, issues one from
the next position as soon as the window has room for the whole of it. Its length is free within the limit
(notes/assumptions/6.md); while the record does not sound it fits the room. -/
def StreamSlot.RunIssued (x y : StreamSlot) (tag next : Nat) (h : EmitterHandle) (r : Record) (c : Clip) : Prop :=
  ∀ room limit, room = 8192 - x.window.length → IsRunLimit r.loop c.length x.nextPos limit →
    (x.fetchState ≠ .running ∨ x.fetch ≠ none ∨ limit = 0 ∨ room = 0 → y = x ∧ next = tag) ∧
    (x.fetchState = .running → x.fetch = none → 0 < limit → 0 < room →
      ∃ len, 1 ≤ len ∧ len ≤ limit ∧ (r.state.sounds = false → len ≤ room) ∧
        (len ≤ room → y = { x with fetch := some ⟨tag, h, r.clip, ⟨x.nextPos, len⟩, false, false⟩ } ∧ next = tag + 1) ∧
        (room < len → y = x ∧ next = tag))

/-- `r` is the record from which the next sample is played: `old` itself, or, where a change to LOOP has left `old` at the clip
length, `old` at the loop start with the pass count raised (R82). -/
def Record.Wraps (old r : Record) (c : Clip) : Prop :=
  old.playPosition < c.length ∧ r = old ∨
  c.length ≤ old.playPosition ∧ ∃ a b, old.loop = .loop a b ∧ a < c.length ∧
    r = { old with playPosition := a, passCount := satSucc 4294967295 old.passCount }

/-- Priming completes in the slot `x` of record `r` (R73): the record is PRIMING, the primed mark is not set, and the window is
full or holds the rest of a ONCE clip. -/
def StreamSlot.completesPriming (x : StreamSlot) (r : Record) (c : Clip) : Bool :=
  r.state == .priming && !x.primed && (decide (8192 ≤ x.window.length) || r.loop == .once && decide (c.length ≤ x.nextPos))

/-- The slot `x` with its primed mark set where priming completes in it (R73). -/
def StreamSlot.marked (x : StreamSlot) (r : Record) (c : Clip) : StreamSlot :=
  { x with primed := x.primed || x.completesPriming r c }

/-- The primed report, where priming completes (R73). -/
def StreamSlot.primedReport (x : StreamSlot) (h : EmitterHandle) (r : Record) (c : Clip) : List Message :=
  if x.completesPriming r c = true then [.primed h] else []

/-! ## The apply of a change (R29, R82, R101 to R104) -/

/-- The staged change `d` of handle `h` has left the place where it waits, on the way from `s` to `w` (R101, R102): an AT apply
point is withdrawn from the timer, an ON one leaves its trigger's apply list, and a NEXT_FRAME expiry stays. -/
def State.PlaceLeft (s w : State) (h : EmitterHandle) (d : Change) : Prop :=
  (d.apply = .nextFrame → w.timer = s.timer ∧ w.triggers = s.triggers) ∧
  (∀ t, d.apply = .at t → w.timer = s.timer.filter (fun x => x.kind != .atApply h d.number) ∧ w.triggers = s.triggers) ∧
  ∀ t, d.apply = .on t → w.timer = s.timer ∧ (∀ k, k ≠ t → w.triggers.get k = s.triggers.get k) ∧
    w.triggers.get t = { s.triggers.get t with applyList := (s.triggers.get t).applyList.filter fun k => k != h }

/-- `pos` is the fade position at which a path begins that is bound with the values `v` (R27): for a fade, its starting point index
modulo the present number of points of its profile, with the elapsed time 0; without one, none. -/
def State.FadeEntered (s : State) (v : PathVals) (pos : Option FadePos) : Prop :=
  (v.fade = none → pos = none) ∧
  ∀ z k, v.fade = some z → s.fadeAt z.profile = some k → pos = some ⟨z.index % k.curve.points.length, 0⟩

/-- The paths of the record `q` are those of `r` after the change `v` (R27, R29, R35). A position that stays keeps its
accumulator, and its fade position where its fade is the same; another fade begins at its entry; a position that is added is
bound as a new one. -/
def State.PathsReplaced (s : State) (r q : Record) (v : NewValues) : Prop :=
  (v.paths = none → q.paths = r.paths) ∧
  ∀ vs, v.paths = some vs → q.paths.length = vs.length ∧ ∀ i x, vs[i]? = some x →
    ∃ pos, (∀ p, r.paths[i]? = some p → q.paths[i]? = some { p with vals := x, pos := pos } ∧
        (x.fade = p.vals.fade → pos = p.pos) ∧ (x.fade ≠ p.vals.fade → s.FadeEntered x pos)) ∧
      (r.paths.length ≤ i → q.paths[i]? = some ⟨x, pos, 0, none⟩ ∧ s.FadeEntered x pos)

/-- The record `q` is `r` after the new values of a change (R29, R102): its paths apart, every value that the change carries is
the new one, and every other value is as it was. -/
def Record.TookChange (r q : Record) (v : NewValues) : Prop :=
  q = { r with
    paths := q.paths, carrier := v.carrier.getD r.carrier, loop := v.loop.getD r.loop, ports := v.ports.getD r.ports
    cue := v.cue.apply r.cue, stopPoint := v.stop.apply r.stopPoint, staged := none } ∧
  q.pathVals = v.paths.getD r.pathVals

/-- The record of a port after the message that an apply sends it for handle `h` of record `r` (R103): by the present and the
new port set a join with the new weight, a weight message, a leave, or none. A join of a handle that is a member already leaves it
as it is (notes/assumptions/58.md). -/
def PortRec.told (a : PortRec) (h : EmitterHandle) (r : Record) (v : NewValues) (p : Port) : PortRec :=
  let weight := weightOf (v.paths.getD r.pathVals)
  let freed := a.reservations.filter fun x => x.handle != h
  match r.ports.getLsbD p.val, (v.ports.getD r.ports).getLsbD p.val with
  | false, false => a
  | true, false => { a with members := a.members.filter fun m => m.handle != h }
  | true, true =>
    { a with reservations := freed, members := a.members.map fun m => if m.handle = h then { m with weight := weight } else m }
  | false, true =>
    { a with
      reservations := freed
      members := if a.members.any (fun m => m.handle == h) then a.members else a.members ++ [⟨h, weight, []⟩] }

/-- The timer after an apply for handle `h` at scene time `now` (R104): with a new stop point or none, the present stop-point
expiry is withdrawn, and one for a new time still to come is requested. -/
def NewValues.stopTimer (v : NewValues) (now : Int) (h : EmitterHandle) (timer : List PendingExpiry) : List PendingExpiry :=
  match v.stop with
  | .keep => timer
  | .remove => timer.filter fun x => !x.kind.isStopOf h
  | .set t => (timer.filter fun x => !x.kind.isStopOf h) ++ if ticks t ≤ now then [] else [⟨.stopPoint h t, ticks t⟩]

/-- The expiry that an apply raises at once (R104): that of a new stop time at or before the scene time. -/
def NewValues.stopRaised (v : NewValues) (now : Int) (h : EmitterHandle) : List Message :=
  match v.stop with
  | .keep | .remove => []
  | .set t => if ticks t ≤ now then [.expiry (.stopPoint h t)] else []

/-- The slot after it is handed the loop and the longest delay of the changed record `k` (R80, R82): with a new loop its order
is taken over, and the end of a tail stands only while the played zeros outlast the longest delay. -/
def StreamSlot.handed (x : StreamSlot) (k : Record) (c : Clip) (loopCarried : Bool) : StreamSlot :=
  let y := if loopCarried then x.reorder k c.length else x
  match y.tail with
  | some t => { y with endFound := y.endFound && decide (t + k.longestDelay + 1 < k.advance) }
  | none => y

/-- The slot of handle `h`, if it holds one, has been handed its changed record `k` on the way from `s` to `u` (R82): priming may
complete with a primed report `sent`, and the next run may be issued, but not while a read is in flight, a discarded one
included (R77). -/
def State.SlotTold (s u : State) (h : EmitterHandle) (k : Record) (loopCarried : Bool) (sent : List Message) : Prop :=
  (s.slotOf h = none → u.slots = s.slots ∧ u.nextTag = s.nextTag ∧ sent = []) ∧
  ∀ n c y, s.slotOf h = some n → s.clipAt k.clip = some c → y = (s.slots.get n).handed k c loopCarried →
    sent = y.primedReport h k c ∧ (y.marked k c).RunIssued (u.slots.get n) s.nextTag u.nextTag h k c ∧
    ∀ m, m ≠ n → u.slots.get m = s.slots.get m

/-- The change `v` has been applied to the record `r` of handle `h` on the way from `s` to `u` (R102, steps 2 to 7): the record,
the timer's stop point, the ports and the slot; nothing else has changed. -/
def State.Applied (s u : State) (h : EmitterHandle) (r : Record) (v : NewValues) : Prop :=
  ∃ k sent, u.recordAt h = some k ∧ r.TookChange k v ∧ s.PathsReplaced r k v ∧ s.otherEntries u h.slot ∧
    u.timer = v.stopTimer s.now h s.timer ∧ (∀ p, u.ports.get p = (s.ports.get p).told h r v p) ∧
    s.SlotTold u h k v.loop.isSome sent ∧ u.inFlight = s.inFlight ++ v.stopRaised s.now h ++ sent ∧
    u = { s with
      entries := u.entries, timer := u.timer, ports := u.ports, slots := u.slots, inFlight := u.inFlight
      nextTag := u.nextTag }

/-- The staged change `d` of the record `r` of handle `h` has been applied on the way from `s` to `u` (R102): it has left the
place where it waits, and its values have been applied. -/
def State.AppliedStaged (s u : State) (h : EmitterHandle) (r : Record) (d : Change) : Prop :=
  ∃ w : State, s.PlaceLeft w h d ∧ w = { s with timer := w.timer, triggers := w.triggers } ∧ w.Applied u h r d.new

/-- The staged changes of the listed handles have been applied in the order of the list, on the way from `s` to `u` (R61); a
handle without one has been passed over. -/
def State.AppliedInTurn : State → State → List EmitterHandle → Prop
  | s, u, [] => u = s
  | s, u, h :: hs => ∃ t : State, State.AppliedInTurn t u hs ∧
    (∀ r d, s.recordAt h = some r → r.staged = some d → s.AppliedStaged t h r d) ∧
    ((∀ r, s.recordAt h = some r → r.staged = none) → t = s)

/-- The record of port `p` after the change `d` of handle `h` has released its reservation there (R98, R100). -/
def Change.releasedAt (d : Change) (h : EmitterHandle) (p : Port) (a : PortRec) : PortRec :=
  { a with reservations :=
      if (d.portReservations.any fun y => y.port == p) = true then a.reservations.filter fun x => x.handle != h
      else a.reservations }

/-- `w` is the state `s` with the staged change of the record `r` of handle `h` withdrawn, where it has one (R98): the figures of
R97 are taken there. -/
def State.Withdrawn (s w : State) (h : EmitterHandle) (r : Record) : Prop :=
  (r.staged = none → w = s) ∧
  ∀ d, r.staged = some d → w.recordAt h = some { r with staged := none } ∧ s.otherEntries w h.slot ∧ s.PlaceLeft w h d ∧
    (∀ p, w.ports.get p = d.releasedAt h p (s.ports.get p)) ∧
    w = { s with entries := w.entries, timer := w.timer, triggers := w.triggers, ports := w.ports }

/-- A MODIFY on the record `r` of handle `h` has been numbered `n`, and a staged change that was present superseded, on the way
from `s` to `w` (R94, R98, R100): the old change leaves its place and its port reservations, and SUPERSEDED is raised. -/
def State.Numbered (s w : State) (h : EmitterHandle) (r : Record) (n : Nat) : Prop :=
  s.otherEntries w h.slot ∧
  (r.staged = none → w.recordAt h = some { r with changeCounter := n } ∧ w = { s with entries := w.entries }) ∧
  ∀ d, r.staged = some d →
    w.recordAt h = some { r with
      changeCounter := n, staged := none, supersededCount := satSucc 65535 r.supersededCount, attention := true
      causes := { r.causes with superseded := true } } ∧
    s.PlaceLeft w h d ∧
    (∀ p, w.ports.get p = d.releasedAt h p (s.ports.get p)) ∧
    w.units.get r.lane = { s.units.get r.lane with
      summary := (s.units.get r.lane).summary ||| Cause.emitterAttention.bit } ∧
    s.otherUnits w r.lane ∧
    w = { s with
      entries := w.entries, timer := w.timer, triggers := w.triggers, ports := w.ports, units := w.units, sent := w.sent }

/-! ## What a CREATE and a MODIFY have passed (R13, R14, R93, R95 to R97) -/

/-- What a CREATE of lane `l`, with the loop `m`, has passed before its entry is chosen (R13, steps 1 to 7; R14). -/
def State.CreatePlaced (s : State) (l : Lane) (q : CreateReq) (m : LoopMode) : Prop :=
  1 ≤ q.paths.length ∧ q.paths.length ≤ 8 ∧ q.ports ≠ 0 ∧ q.loop.mode = some m ∧ q.priority ≤ 7 ∧
  q.stop.kind.toNat ≤ 1 ∧ q.cue.kind.toNat ≤ 1 ∧ q.start.given ≠ .malformed ∧
  (∀ f ∈ q.paths, f.Ranged) ∧ (∀ a b, m = .loop a b → a < b ∧ 1024 ≤ b - a) ∧
  (q.cue.kind = 1 → q.cue.line.toNat < 4) ∧ (∀ n, q.start.given = .on n → n.toNat < 8) ∧
  (∀ t u, q.start.given.point = some (.at t) → q.stop.change.value = some u → t.toNat < u.toNat) ∧
  (∀ f ∈ q.paths, ∀ z, f.vals.fade = some z → ∃ k, s.fadeAt z.profile = some k ∧ z.index < k.curve.points.length ∧
    (l ≠ 0 → k.lane = l ∨ k.lane = 0)) ∧
  (∀ t, q.start.given.point = some (.on t) → l ≠ 0 → (s.triggers.get t).owner = l) ∧
  ∃ c, s.clipAt q.clip.clip = some c ∧ c.state = .ready ∧ q.startOffset.toNat < c.length ∧
    (l ≠ 0 → c.lane = l ∨ c.lane = 0) ∧ (∀ a b, m = .loop a b → b ≤ c.length ∧ q.startOffset.toNat < b) ∧
    (∀ k, q.cue.change.value = some k → k.sample < c.length) ∧ 2 * q.carrier.toInt.natAbs < c.rate ∧
    (∀ f ∈ q.paths, f.delay.toNat < c.length ∧ ∀ a b, m = .loop a b → f.delay.toNat < b - a) ∧
    ∀ p : Port, q.ports.getLsbD p.val = true → (s.ports.get p).head ≠ .unfitted ∧ s.portRate p = c.rate ∧
      (l ≠ 0 → (s.ports.get p).owner = l)

/-- What a MODIFY of lane `l` that is accepted has passed (R95 to R97), in the order of its steps. The new weight and the new port
set are those of R93. -/
def State.ModifyPasses (s : State) (l : Lane) (q : ModifyReq) (x : ModifyFound) : Prop :=
  let r := x.record
  let v := x.values
  let vals := v.paths.getD r.pathVals
  let weight := weightOf vals
  let ports := v.ports.getD r.ports
  (q.paths.isSome = true ∨ q.carrier.isSome = true ∨ q.ports.isSome = true ∨ q.loop.isSome = true ∨ q.stop.kind ≠ 0 ∨
    q.cue.kind ≠ 0) ∧ q.unmodifiable = false ∧ (∀ ps, q.paths = some ps → 1 ≤ ps.length ∧ ps.length ≤ 8) ∧ q.ports ≠ some 0 ∧
  (∀ ps, q.paths = some ps → ∀ f ∈ ps, PathField.Ranged f) ∧ (∀ a b, v.loop = some (.loop a b) → a < b ∧ 1024 ≤ b - a) ∧
  (∀ t u, x.apply = some (.at t) → v.stop = .set u → t.toNat < u.toNat) ∧
  s.recordAt x.handle = some r ∧ (l = 0 ∨ l = r.lane) ∧
  (∀ t, x.apply = some (.on t) → l = 0 ∨ l = (s.triggers.get t).owner) ∧
  (∀ ps, v.paths = some ps → ∀ p ∈ ps, ∀ z, p.fade = some z → ∃ k, s.fadeAt z.profile = some k ∧
    z.index < k.curve.points.length ∧ (r.lane ≠ 0 → k.lane = r.lane ∨ k.lane = 0)) ∧
  (r.state = .staged ∨ r.state = .armed ∨ r.state = .waiting ∨ r.state = .priming ∨ r.state = .onAir ∨ r.state = .paused) ∧
  (∃ c, s.clipAt r.clip = some c ∧
    (∀ p : Port, ports.getLsbD p.val = true → r.ports.getLsbD p.val = false → (s.ports.get p).head ≠ .unfitted ∧
      s.portRate p = c.rate ∧ (r.lane ≠ 0 → (s.ports.get p).owner = r.lane)) ∧
    (∀ a b, v.loop = some (.loop a b) → b ≤ c.length) ∧ (∀ k, v.cue = .set k → k.sample < c.length) ∧
    2 * (v.carrier.getD r.carrier).natAbs < c.rate ∧
    (∀ t u, r.startPoint = some (.at t) → v.stop = .set u → t.toNat < u.toNat) ∧
    ∀ p ∈ vals, p.delay < c.length ∧ ∀ a b, v.loop.getD r.loop = .loop a b → p.delay < b - a) ∧
  (∃ w : State, s.Withdrawn w x.handle r ∧ (∀ ps, v.paths = some ps → ps.length ≤ r.paths.length + w.poolFree) ∧
    ∀ p : Port, ports.getLsbD p.val = true →
      (r.ports.getLsbD p.val = false → (w.ports.get p).members.length + (w.ports.get p).reservedJoins ≤ 15 ∧
        (w.ports.get p).committed + weight ≤ (w.ports.get p).budget) ∧
      (r.ports.getLsbD p.val = true → r.weight < weight →
        (w.ports.get p).committed + (weight - r.weight) ≤ (w.ports.get p).budget)) ∧
  (∀ t, x.apply = some (.at t) → s.now < ticks t) ∧ ∀ u, v.stop = .set u → s.now < ticks u

/-! ## The abort of a held request (R172) -/

/-- `w` is the write of ABORTED that lane `l` issues under the number `tag` where its held request is ended (R172): for a
LOAD_CLIP with the samples copied as its one result word, and otherwise with none. -/
def State.AbortedWrite (s : State) (l : Lane) (tag : Nat) (w : HostWrite) : Prop :=
  w.tag = tag ∧ w.lane = l ∧ w.block = (s.units.get l).current ∧ w.resultArea = (s.units.get l).resultArea ∧
  w.answer.status = .aborted ∧
  (∀ b q, (s.units.get l).block = some b → b.area = some (.loadClip q) → w.answer.result = .copied (s.copiedFor l) ∧
    (b.formOk = true → w.words = min 1 b.header.resLen.toNat ∧ w.truncated = decide (b.header.resLen = 0))) ∧
  ((∀ b q, (s.units.get l).block = some b → b.area ≠ some (.loadClip q)) →
    w.answer.result = .empty ∧ w.words = 0 ∧ w.truncated = false)

end Sys2Proof.Machine
end

