-- ==== Sys2Proof/WellFormed.lean ====
section
/-!
DEFINITION. When a command is well formed: its operands can occur on the part's interfaces. What a request asks for is judged
by the part itself (R168 and the checks of each kind), so an ill-advised request is well formed.
-/

namespace Sys2Proof

/-- A generation is 1 to 255 (spec/00_scope.md). -/
def genOk (g : Generation) : Bool := g != 0

/-- The largest weight of an emitter: eight paths of 1023. -/
def maxWeight : Nat := 8184

/-- A change number is 1 to 65,535 (R94). -/
def changeNumberOk (n : Nat) : Bool := 1 ≤ n && n ≤ 65535

/-- The count of a path list is one byte (9.9). -/
def pathListOk (ps : List PathField) : Bool := ps.length ≤ 255

/-- A request whose lists have counts that a request area can hold. -/
def Request.wf : Request → Bool
  | .create q => pathListOk q.paths
  | .modify q => pathListOk (q.paths.getD [])
  | .nop | .start _ | .pause _ | .resume _ | .retire _ | .queryEmitter _ | .defineClip _ | .loadClip _ | .retireClip _
  | .queryClip _ | .defineFade _ | .retireFade _ | .configurePort _ | .restartPort _ | .setOutput _ | .queryPort _
  | .scan _ | .flushLane _ | .setLane _ | .setTime _ => true

/-- A value that is none of the list commands START, RESUME, ABORT (R170). -/
def listValueInvalid (v : BitVec 32) : Bool := v != 1 && v != 2 && v != 3

/-- A window write that is a command of its own: a bench command, a list command, a cause summary, an interrupt enable
(9.9). -/
def ownCommand (offset : Nat) (value : BitVec 64) : Bool :=
  (offset == 0x010 && (value == 1 || value == 2)) ||
  (0x100 ≤ offset && offset < 0x200 &&
    (offset % 0x40 == 0x08 || offset % 0x40 == 0x18 || offset % 0x40 == 0x1C))

/-- What the flash gives is at most what a block length can ask for (10.2). -/
def FlashRead.wf : FlashRead → Bool
  | .data bytes => bytes.length ≤ 65535
  | .failed => true

/-- A command whose operands can occur. -/
def Instr.wf : Instr → Bool
  | .listCommandInvalid _ v => listValueInvalid v
  | .registerWrite offset value => !ownCommand offset value
  | .profileReadDone _ flash => flash.wf
  | .fetchRequestDone _ _ area => match area with
    | some r => r.wf
    | none => true
  | .create _ q _ => pathListOk q.paths
  | .modify _ q => pathListOk (q.paths.getD [])
  | .spentExpiry h | .startTimeExpiry h | .stopPointExpiry h _ | .rampEndExpiry h | .primedReport h | .endOfClipReport h
  | .cueCrossing h _ _ | .recoveredReport h | .failureReport h | .portLeave _ h | .reservationRelease _ h => genOk h.gen
  | .atApplyExpiry h n | .nextFrameApplyExpiry h n => genOk h.gen && changeNumberOk n
  | .fadeReplacementExpiry h => genOk h.gen
  | .readCountMessage c _ | .clipReferenceRelease c => genOk c.gen
  | .portJoin _ h w | .portWeight _ h w => genOk h.gen && w ≤ maxWeight
  | .reservationClaim _ h _ w => genOk h.gen && w ≤ maxWeight
  | .copyHostReadDone _ bytes => 0 < bytes.length && bytes.length % 4 == 0
  | .powerOn | .benchReset | .sceneFlush | .windowStart _ | .windowResume _ | .windowAbort _ | .causeSummaryWrite _ _
  | .interruptEnableWrite _ _ | .sceneTimeReadLow _ | .sceneTimeReadHigh | .profileReadTimeout | .fetchHeaderDone _ _ _
  | .fetchReadFailed _ _ | .resumeLinkReadDone _ _ _ | .handOver | .heldRequestComplete _ | .writeDone _ _
  | .writeFailed _ _ | .nop _ | .start _ _ _ | .pause _ _ | .resume _ _ | .retire _ _ | .queryEmitter _ _ _
  | .defineFade _ _ | .retireFade _ _ | .flushLane _ _ | .defineClip _ _ | .loadClip _ _ | .loadCopyEnd _ _
  | .retireClip _ _ | .queryClip _ _ _ | .configurePort _ _ | .restartPort _ _ | .setOutput _ _ | .queryPort _ _ _
  | .scan _ _ _ | .scanClassRead | .setLane _ _ | .setLanePart | .setTime _ _ | .startLeadExpiry _
  | .outputChangeExpiry _ | .triggerLineChange _ _ | .triggerQualified _ | .triggerEdge _ _ | .grant | .runReadDone _ _ _
  | .slotOutputSample _ | .cuePulseEnd _ | .demandReadDone _ _ _ | .portOutputSample _ | .probeAnswer _ _ _ _
  | .setRateAck _ _ | .headExchangeTimeout _ | .headStatusMessage _ _ _ _ => true

end Sys2Proof
end

