-- ==== Sys2Proof/Certificates/Slice0/Obligations.lean ====
section
/-!
DEFINITION. The statements for the provers. Each follows rules of spec/, named in OBLIGATIONS.json. A statement about a request
supposes that a lane has handed it over (State.Handed) and gives the state `u` on which the answer is written by
State.answer, whose own effect is Obligations.ABlockIsAnswered. A frame is said as `t = { s with f := t.f, ... }`: every
field that is not named, clip memory among them, is as it was.
-/

open Sys2Proof Sys2Proof.Machine

/-! ## The queue and the clock -/

/-- A step carries out the command at the front of the queue, on the state with the queue's rest. -/
def Obligations.StepRunsTheFrontCommand : Prop :=
  ∀ (s : State) (c : Instr) (rest : List Instr), step (s.withPending (c :: rest)) = exec c (s.withPending rest)

/-- The model's choice (notes/assumptions/1.md): on an empty queue a period of the bench reference goes by. While the part is
READY, scene time advances by one, the expiries whose time has come are raised and the others stay pending, and the fade
positions of the sounding records advance: a path whose fade names an accepted profile and which holds a position takes the next
one of that profile's curve (AFadeGainStaysOnItsCurve), any other path is as it was. While the part is not READY, scene time
stands still. -/
def Obligations.AnEmptyQueueLetsAPeriodPass : Prop :=
  ∀ s : State, s.pending = [] →
    (s.phase ≠ .ready → step s = .next { s with refTime := s.refTime + 1 }) ∧
    (s.phase = .ready → ∃ t : State, ∃ turned : Path → Path, step s = .next t ∧
      t.refTime = s.refTime + 1 ∧ t.sceneTime = s.sceneTime + 1 ∧
      t.timer = s.timer.filter (fun x => decide (t.now < x.due)) ∧
      t.inFlight = s.inFlight ++ (s.timer.filter fun x => decide (x.due ≤ t.now)).map (fun x => Message.expiry x.kind) ∧
      (∀ i, t.entries.get i = { s.entries.get i with
        record := (s.entries.get i).record.map fun r =>
          if r.state.sounds then { r with paths := r.paths.map turned } else r }) ∧
      (∀ p x f y, p.vals.fade = some x → s.fadeAt x.profile = some f → p.pos = some y →
        turned p = { p with pos := some (f.curve.advance y) }) ∧
      (∀ p, p.pos = none ∨ (∀ x, p.vals.fade = some x → s.fadeAt x.profile = none) → turned p = p) ∧
      t = { s with
        refTime := t.refTime, sceneTime := t.sceneTime, timer := t.timer, inFlight := t.inFlight, entries := t.entries })

/-! ## Resets -/

/-- What the part holds right after reset: STARTING with the profile read in flight, which is transfer 0, issued at period 0;
every unit IDLE with its registers at 0, every entry, profile slot and clip slot empty at generation 1 with its unused mark, no
stream slot held, nothing pending and no message, write or read on its way, the cue lines IDLE, the ports and triggers at their
defaults. The number of the transfer is the model's (notes/assumptions/13.md), and the period count its choice
(notes/assumptions/14.md). -/
def Obligations.ResetLeavesThePartStarting : Prop :=
  State.reset.phase = .readingProfile 0 0 ∧ State.reset.sceneTime = 0 ∧ State.reset.latch = none ∧ State.reset.pointer = 3 ∧
  State.reset.inFlight = [] ∧ State.reset.writes = [] ∧ State.reset.strayReads = [] ∧ State.reset.walk = none ∧
  (∀ l, (State.reset.units.get l).state = .idle ∧ (State.reset.units.get l).listBase = 0 ∧
    (State.reset.units.get l).current = 0 ∧ (State.reset.units.get l).summary = 0 ∧ (State.reset.units.get l).enable = 0 ∧
    (State.reset.units.get l).window = if l = 0 then none else some HostWindow.unrestricted) ∧
  (∀ l, State.reset.spentIntervals.get l = 2000) ∧
  (∀ i, State.reset.entries.get i = ⟨1, true, none⟩) ∧ (∀ i, State.reset.fades.get i = ⟨1, true, none⟩) ∧
  (∀ i, State.reset.clips.get i = ⟨1, true, none, none⟩) ∧ (∀ n, (State.reset.slots.get n).owner = none) ∧
  State.reset.spentList = [] ∧ State.reset.armSet = [] ∧ State.reset.timer = [] ∧ State.reset.grantQueue = [] ∧
  State.reset.loadQueue = [] ∧ State.reset.copy = none ∧ (∀ q, State.reset.cues.get q = .idle) ∧
  (∀ t, (State.reset.triggers.get t).edge = .rising ∧ (State.reset.triggers.get t).qualification = 2 ∧
    (State.reset.triggers.get t).owner = 0 ∧ (State.reset.triggers.get t).armList = [] ∧
    (State.reset.triggers.get t).applyList = [] ∧ (State.reset.triggers.get t).note = none) ∧
  (∀ p, (State.reset.ports.get p).owner = 0 ∧ (State.reset.ports.get p).clock = .synth 2 ∧
    (State.reset.ports.get p).budget = 4096 ∧ (State.reset.ports.get p).output = ⟨false, false, 4⟩ ∧
    (State.reset.ports.get p).head = .unfitted ∧ (State.reset.ports.get p).members = [] ∧
    (State.reset.ports.get p).reservations = []) ∧
  State.reset.pending = []

/-- POWER_ON takes the part to what it holds right after reset, whatever it held: only the level of the trigger lines, the
periods gone by, the log of what was sent and the waiting commands are not the part's to change, the transfers are numbered on,
and clip memory has contents that nothing has set. BENCH_RESET: as power-on, but each lane keeps its list base and its interrupt
enable, each port its exchange tag and the sample last sent, and clip memory keeps its contents. The model's own parts of this:
that the settled level is LOW until READY and that the sample last sent is zero at power-on and kept over a bench reset are its
choice of notes/assumptions/14.md; that messages, reads and writes on their way are dropped is its inference of
notes/assumptions/12.md. -/
def Obligations.TheResetsSetEveryBlock : Prop :=
  (∀ s : State, ∃ t : State, exec .powerOn s = .next t ∧
     (∀ x, t.triggers.get x = { State.reset.triggers.get x with line := (s.triggers.get x).line }) ∧
     t.phase = .readingProfile s.nextTag s.refTime ∧ t.nextTag = s.nextTag + 1 ∧ t.clipMem = [] ∧
     t = { State.reset with
       phase := t.phase, refTime := s.refTime, triggers := t.triggers, powerOns := s.powerOns + 1, nextTag := t.nextTag,
       sent := s.sent, pending := s.pending }) ∧
  (∀ s : State, ∃ t : State, exec .benchReset s = .next t ∧
     (∀ l, t.units.get l = { State.reset.units.get l with
       listBase := (s.units.get l).listBase, enable := (s.units.get l).enable }) ∧
     (∀ x, t.triggers.get x = { State.reset.triggers.get x with line := (s.triggers.get x).line }) ∧
     (∀ p, t.ports.get p = { State.reset.ports.get p with tag := (s.ports.get p).tag, pin := (s.ports.get p).pin }) ∧
     (∀ a, t.clipByte a = s.clipByte a) ∧ t.phase = .readingProfile s.nextTag s.refTime ∧ t.nextTag = s.nextTag + 1 ∧
     t = { State.reset with
       phase := t.phase, refTime := s.refTime, units := t.units, triggers := t.triggers, ports := t.ports,
       clipMem := s.clipMem, powerOns := s.powerOns, nextTag := t.nextTag, sent := s.sent, pending := s.pending })

/-! ## Causes and interrupts -/

/-- Setting a cause adds its bit to the lane's summary, and the lane's interrupt message is sent when the interrupt condition
passes from not holding to holding; nothing else changes. CAUSE_SUMMARY_WRITE clears each cause whose bit the value carries,
leaves the others, and sends nothing. INTERRUPT_ENABLE_WRITE writes the enable from bits 0 to 8 of the value, and sends the
lane's interrupt message when the condition passes from not holding to holding. -/
def Obligations.CausesAreSetClearedAndInterrupt : Prop :=
  (∀ (s : State) (l : Lane) (c : Cause), ∃ t : State, s.setCause l c = t ∧
     t.units.get l = { s.units.get l with summary := (s.units.get l).summary ||| c.bit } ∧
     (∀ k, k ≠ l → t.units.get k = s.units.get k) ∧
     (t.sent = if (s.units.get l).interrupts = false ∧ (t.units.get l).interrupts = true
       then s.sent ++ [.interrupt l] else s.sent) ∧
     t = { s with units := t.units, sent := t.sent }) ∧
  (∀ (s : State) (l : Lane) (v : BitVec 32), ∃ t : State, exec (.causeSummaryWrite l v) s = .next t ∧
     t.units.get l = { s.units.get l with summary := (s.units.get l).summary &&& ~~~(v.setWidth 9) } ∧
     (∀ k, k ≠ l → t.units.get k = s.units.get k) ∧ t = { s with units := t.units }) ∧
  (∀ (s : State) (l : Lane) (v : BitVec 32), ∃ t : State, exec (.interruptEnableWrite l v) s = .next t ∧
     t.units.get l = { s.units.get l with enable := v.setWidth 9 } ∧
     (∀ k, k ≠ l → t.units.get k = s.units.get k) ∧
     (t.sent = if (s.units.get l).summary &&& (s.units.get l).enable = 0 ∧ (s.units.get l).summary &&& v.setWidth 9 ≠ 0
       then s.sent ++ [.interrupt l] else s.sent) ∧
     t = { s with units := t.units, sent := t.sent })

/-! ## The control window -/

/-- The list commands that a unit does not take are ignored, and set COMMAND_REFUSED for the lane: a value that is none of
START, RESUME and ABORT; START while the part is STARTING, or of a unit that is ACTIVE or SUSPENDED; RESUME of a unit that
is IDLE, ACTIVE or FAULTED. REGISTER_WRITE, which is no write that is a command of its own (Instr.wf): a write to a lane's
list base is taken at any time and stores the address, and the list in progress goes on; a write to any other field is
ignored. That a list base is written by one write of 8 bytes at its own offset, and that a write at its upper half is
ignored, is the model's choice of notes/assumptions/29.md. The words that the window shows, by the offsets and encodings of
9.9: the part identity, the start-up status, and for each lane the list base and the current block, of 8 bytes with the
lower half first, the unit state with its phase and fault detail, the summary and the enable; the command fields read 0. The
model's choices here: that the phase bits show 0 outside ACTIVE (notes/assumptions/53.md), that the bits for which 9.9 names
no meaning and every offset at which it gives no field read 0 (notes/assumptions/54.md), and that the design revision is an
unknown constant (notes/assumptions/28.md). -/
def Obligations.TheWindowStoresOrRefusesItsWrites : Prop :=
  (∀ s : State,
    (s.windowWord 0x000).setWidth 16 = (896 : BitVec 16) ∧ (s.windowWord 0x000 >>> 16).setWidth 16 = Config.designRevision ∧
    ((s.windowWord 0x004).getLsbD 0 = true ↔ s.phase = .ready) ∧
    (s.windowWord 0x004).getLsbD 1 = s.profileDefaults ∧ (s.windowWord 0x004).getLsbD 2 = s.profilePartial ∧
    (∀ k, 3 ≤ k → (s.windowWord 0x004).getLsbD k = false) ∧
    (∀ l : Lane, ∀ base, base = 0x100 + 0x40 * l.val →
      s.windowWord (base + 0x04) ++ s.windowWord base = (s.units.get l).listBase ∧
      s.windowWord (base + 0x14) ++ s.windowWord (base + 0x10) = (s.units.get l).current ∧
      (∀ x, x ∈ [(UnitState.idle, 0x000#32), (.active .fetchHeader, 0x001#32), (.active .fetchRequest, 0x001#32),
          (.active .readLink, 0x001#32), (.active .waitingTurn, 0x011#32), (.active .handed, 0x021#32),
          (.active .held, 0x031#32), (.active .writing, 0x041#32), (.suspended, 0x002#32), (.faulted .linkRead, 0x103#32),
          (.faulted .linkWrite, 0x203#32), (.faulted .window, 0x303#32), (.faulted .alignment, 0x403#32)] →
        (s.units.get l).state = x.1 → s.windowWord (base + 0x0C) = x.2) ∧
      s.windowWord (base + 0x18) = (s.units.get l).summary.setWidth 32 ∧
      s.windowWord (base + 0x1C) = (s.units.get l).enable.setWidth 32) ∧
    (∀ offset, offset ∉ [0x000, 0x004, 0x008, 0x00C] →
      (∀ l : Lane, ∀ k ∈ [0x00, 0x04, 0x0C, 0x10, 0x14, 0x18, 0x1C], offset ≠ 0x100 + 0x40 * l.val + k) →
      s.windowWord offset = 0)) ∧
  (∀ (s : State) (l : Lane),
     (∀ v : BitVec 32, listValueInvalid v = true → exec (.listCommandInvalid l v) s = .next (s.setCause l .commandRefused)) ∧
     ((s.phase ≠ .ready ∨ (s.units.get l).state = .suspended ∨ ∃ p, (s.units.get l).state = .active p) →
       exec (.windowStart l) s = .next (s.setCause l .commandRefused)) ∧
     (((s.units.get l).state = .idle ∨ (∃ p, (s.units.get l).state = .active p) ∨ ∃ d, (s.units.get l).state = .faulted d) →
       exec (.windowResume l) s = .next (s.setCause l .commandRefused))) ∧
  (∀ (s : State) (offset : Nat) (v : BitVec 64), (Instr.registerWrite offset v).wf = true →
     (∀ l : Lane, offset = 0x100 + 0x40 * l.val → ∃ t : State, exec (.registerWrite offset v) s = .next t ∧
       t.units.get l = { s.units.get l with listBase := v } ∧ (∀ k, k ≠ l → t.units.get k = s.units.get k) ∧
       t = { s with units := t.units }) ∧
     ((∀ l : Lane, offset ≠ 0x100 + 0x40 * l.val) → exec (.registerWrite offset v) s = .next s))

/-- WINDOW_START in IDLE or FAULTED, once the part is READY: the current block becomes the list base and its fetch begins; an
address that is not a multiple of 16, and a header outside the host window, take the unit to FAULTED. WINDOW_RESUME in
SUSPENDED: the link of the suspended block is read afresh, where its 8 bytes lie in the host window, and the current block
stays; the link read in becomes the current block, whose fetch begins. A failed re-read, and an address outside the host window,
leave the suspended block the current one and the unit FAULTED; so does a RESUME whose 8 bytes lie outside it. A link read in
that is no multiple of 16 is the address at which the unit faults with ALIGNMENT: the model's inference of
notes/assumptions/34.md. -/
def Obligations.StartAndResumeBeginAFetch : Prop :=
  (∀ (s : State) (l : Lane), s.phase = .ready →
     ((s.units.get l).state = .idle ∨ ∃ d, (s.units.get l).state = .faulted d) →
     ∃ t : State, exec (.windowStart l) s = .next t ∧ (∀ k, k ≠ l → t.units.get k = s.units.get k) ∧
       ((s.units.get l).listBase.toNat % 16 ≠ 0 →
         t.units.get l = { s.units.get l with
           state := .faulted .alignment, current := (s.units.get l).listBase, block := none, answer := none,
           summary := (s.units.get l).summary ||| Cause.ruFaulted.bit } ∧
         t = { s with units := t.units, sent := t.sent }) ∧
       ((s.units.get l).listBase.toNat % 16 = 0 →
         windowAllows (s.units.get l).window (s.units.get l).listBase.toNat 16 = false →
         t.units.get l = { s.units.get l with
           state := .faulted .window, current := (s.units.get l).listBase, block := none, answer := none,
           summary := (s.units.get l).summary ||| Cause.ruFaulted.bit } ∧
         t = { s with units := t.units, sent := t.sent }) ∧
       ((s.units.get l).listBase.toNat % 16 = 0 →
         windowAllows (s.units.get l).window (s.units.get l).listBase.toNat 16 = true →
         t.units.get l = { s.units.get l with
           state := .active .fetchHeader, current := (s.units.get l).listBase, block := none, answer := none,
           tag := s.nextTag } ∧
         t = { s with units := t.units, nextTag := s.nextTag + 1 })) ∧
  (∀ (s : State) (l : Lane),
     (s.phase = .ready → (s.units.get l).state = .suspended →
       windowAllows (s.units.get l).window (s.units.get l).current.toNat 8 = true →
       ∃ t : State, exec (.windowResume l) s = .next t ∧ (∀ k, k ≠ l → t.units.get k = s.units.get k) ∧
         t.units.get l = { s.units.get l with
           state := .active .readLink, block := none, answer := none, tag := s.nextTag } ∧
         t = { s with units := t.units, nextTag := s.nextTag + 1 }) ∧
     (s.phase = .ready → (s.units.get l).state = .suspended →
       windowAllows (s.units.get l).window (s.units.get l).current.toNat 8 = false →
       exec (.windowResume l) s = .next (s.faultUnit l .window)) ∧
     (∀ tag, (s.units.get l).state = .active .readLink → (s.units.get l).tag = tag →
       (exec (.resumeLinkReadDone l tag none) s = .next (s.faultUnit l .linkRead)) ∧
       (∀ a : BitVec 64, a.toNat % 16 ≠ 0 → ∃ t : State, exec (.resumeLinkReadDone l tag (some a)) s = .next t ∧
         (∀ k, k ≠ l → t.units.get k = s.units.get k) ∧
         t.units.get l = { s.units.get l with
           state := .faulted .alignment, current := a, block := none, answer := none
           summary := (s.units.get l).summary ||| Cause.ruFaulted.bit } ∧
         t = { s with units := t.units, sent := t.sent }) ∧
       ∀ a : BitVec 64, a.toNat % 16 = 0 →
         (windowAllows (s.units.get l).window a.toNat 16 = false →
           exec (.resumeLinkReadDone l tag (some a)) s = .next (s.faultUnit l .window)) ∧
         (windowAllows (s.units.get l).window a.toNat 16 = true →
           ∃ t : State, exec (.resumeLinkReadDone l tag (some a)) s = .next t ∧ (∀ k, k ≠ l → t.units.get k = s.units.get k) ∧
             t.units.get l = { s.units.get l with
               state := .active .fetchHeader, current := a, block := none, answer := none, tag := s.nextTag } ∧
             t = { s with units := t.units, nextTag := s.nextTag + 1 })))

/-- A fault of a unit: FAULTED with its detail, RU_FAULTED set, the current block kept, nothing of the block left, and nothing
else changed but an interrupt message sent. FETCH_READ_FAILED in the header read, the request read or the re-read of a link: the
unit is FAULTED with LINK_READ. WRITE_FAILED of a completion write in flight: some of its three writes may have been made, in
their order (how many is free: notes/assumptions/43.md); the unit that waits for it is FAULTED with LINK_WRITE, and where no
unit waits for it the failure is disregarded. -/
def Obligations.AFailedTransferFaultsTheUnit : Prop :=
  (∀ (s : State) (l : Lane) (d : UnitFault), ∃ t : State, s.faultUnit l d = t ∧ (∀ k, k ≠ l → t.units.get k = s.units.get k) ∧
     t.units.get l = { s.units.get l with
       state := .faulted d, block := none, answer := none,
       summary := (s.units.get l).summary ||| Cause.ruFaulted.bit } ∧
     t = { s with units := t.units, sent := t.sent }) ∧
  (∀ (s : State) (l : Lane),
     ((s.units.get l).state = .active .fetchHeader ∨ (s.units.get l).state = .active .fetchRequest ∨
         (s.units.get l).state = .active .readLink →
       exec (.fetchReadFailed l (s.units.get l).tag) s = .next (s.faultUnit l .linkRead)) ∧
     (∀ tag w, s.writeOf l tag = some w → ∃ u : State, ∃ made,
       u = { s with
         writes := s.writes.erase w
         sent := s.sent ++ [Sent.resultWrite w.lane w.resultArea w.answer.result w.words,
           .statusWrite w.lane (w.block + 0x0C) w.answer.status w.words,
           .completionWrite w.lane (w.block + 0x0F) w.truncated].take made } ∧
       ((s.units.get l).state = .active .writing → (s.units.get l).tag = tag →
         exec (.writeFailed l tag) s = .next (u.faultUnit l .linkWrite)) ∧
       ((s.units.get l).state ≠ .active .writing ∨ (s.units.get l).tag ≠ tag → exec (.writeFailed l tag) s = .next u)))

/-- WINDOW_ABORT leaves the unit IDLE in every state, its current block, list base, summary and enable as they stood, and sets
no cause. Unless the unit is HANDED or HELD, nothing but the unit changes (a write in flight runs on); a HANDED request is
passed to no further owner (the model's inference of notes/assumptions/11.md). WINDOW_ABORT of a HELD unit: the write of ABORTED
into the block is issued, for a LOAD_CLIP with the samples copied as its one result word (the samples of a completion already on
its way: the model's inference of notes/assumptions/25.md) and otherwise with none; the lane's load leaves the queue or the
engine and its clip is DEFINED again, other clips and other lanes' loads staying, and the engine takes the next load; the
exchanges of the lane's held port request end with the heads and everything else of the ports as they stood; a completion on its
way is dropped. -/
def Obligations.AbortEndsTheUnitsWork : Prop :=
  (∀ (s : State) (l : Lane), ∃ t : State, exec (.windowAbort l) s = .next t ∧ (t.units.get l).state = .idle ∧
     (t.units.get l).current = (s.units.get l).current ∧ (t.units.get l).listBase = (s.units.get l).listBase ∧
     (t.units.get l).summary = (s.units.get l).summary ∧ (t.units.get l).enable = (s.units.get l).enable ∧
     (∀ k, k ≠ l → t.units.get k = s.units.get k) ∧
     ((s.units.get l).state ≠ .active .handed → (s.units.get l).state ≠ .active .held → t = { s with units := t.units }) ∧
     ((s.units.get l).state = .active .handed → t = { s with units := t.units, walk := none })) ∧
  (∀ (s : State) (l : Lane), (s.units.get l).state = .active .held →
     ∃ t : State, exec (.windowAbort l) s = .next t ∧
       (∃ w, s.AbortedWrite l s.nextTag w ∧ t.writes = s.writes ++ [w]) ∧
       (∀ x n c, s.findLoad (fun x => x.lane == l) = some (x, n) → s.clipAt x.clip = some c → c.state = .loading →
         t.clipAt x.clip = some { c with state := .defined, computedCrc := none }) ∧
       (∀ i, (∀ x n, s.findLoad (fun x => x.lane == l) = some (x, n) → x.clip.slot ≠ i) → t.clips.get i = s.clips.get i) ∧
       (∀ x ∈ t.loadQueue, x.lane ≠ l) ∧ (∀ x, t.copy = some x → x.load.lane ≠ l) ∧
       (∀ x, s.copy = some x → x.load.lane ≠ l →
         t.copy = s.copy ∧ t.loadQueue = s.loadQueue.filter (fun y => y.lane != l) ∧ t.sent = s.sent) ∧
       (∀ x, s.copy = some x → x.load.lane = l →
         (s.loadQueue.filter (fun y => y.lane != l) = [] → t.copy = none ∧ t.loadQueue = [] ∧ t.sent = s.sent) ∧
         ∀ y ys, s.loadQueue.filter (fun y => y.lane != l) = y :: ys →
           t.copy = some ⟨y, 0, BitVec.allOnes 32, s.nextTag + 1⟩ ∧ t.loadQueue = ys) ∧
       (∀ p x, (t.ports.get p).exchange = some x → x.purpose.isOf l = false) ∧
       (∀ p, (t.ports.get p).head = (s.ports.get p).head ∧ (t.ports.get p).tag = (s.ports.get p).tag) ∧
       (∀ p, t.ports.get p = { s.ports.get p with
         exchange := (s.ports.get p).exchange.filter fun x => !x.purpose.isOf l
         job := (s.ports.get p).job.filter fun j => j.lane != l }) ∧
       (∀ m ∈ t.inFlight, m.isHeldDone l = false) ∧ t.inFlight = s.inFlight.filter (fun m => !m.isHeldDone l) ∧
       t = { s with
         units := t.units, writes := t.writes, clips := t.clips, loadQueue := t.loadQueue, copy := t.copy, ports := t.ports,
         inFlight := t.inFlight, nextTag := t.nextTag, sent := t.sent })

/-- The two reads of scene time (SCENE_TIME_READ_LOW, SCENE_TIME_READ_HIGH) and the latch between them. -/
def Obligations.TheLatchJoinsTheTwoReads : Prop :=
  (∀ s : State,
    exec (.sceneTimeReadLow false) s = .next
      { s with
        latch := some ((s.sceneTime >>> 32).setWidth 32)
        sent := s.sent ++ [.windowRead ((s.sceneTime.setWidth 32).setWidth 64)] } ∧
    (∀ x, s.latch = some x → exec .sceneTimeReadHigh s = .next
      { s with latch := none, sent := s.sent ++ [.windowRead (x.setWidth 64)] }) ∧
    (s.latch = none → exec .sceneTimeReadHigh s = .next
      { s with sent := s.sent ++ [.windowRead (s.sceneTime >>> 32)] }) ∧
    exec (.sceneTimeReadLow true) s = .next { s with sent := s.sent ++ [.windowRead s.sceneTime] } ∧
    (∃ t : State, exec .powerOn s = .next t ∧ t.latch = none) ∧ ∃ t, exec .benchReset s = .next t ∧ t.latch = none) ∧
  State.reset.latch = none

/-- SCENE_FLUSH: every unit is IDLE with an address, list base, enable and window as it had, every entry is FREE with its
generation kept, and scene time, the arbiter pointer and clip memory are kept. Every cause summary is cleared, and only
CLIP_ATTENTION for a clip that the flush drains can stand after it. What each record held is given back: its places in the spent
list, the time arm set, the arm and apply lists and the grant queue, its timer items, its stream slot, its port memberships and
its reservations; the path pool is all free. A clip whose references are its holders' ends with none, a DRAINING one drained to
EMPTY with its note. Each HELD unit, in lane order, issues the write of ABORTED into its block (for a LOAD_CLIP with the samples
copied), and no other unit issues one; the load of a HELD unit is gone, and its clip DEFINED; a completion on its way is
dropped. Fade profiles, cue lines, notes and trigger settings, and of the ports everything but accounts, exchanges and
configuring in progress, are kept. While the part is STARTING it is ignored. -/
def Obligations.SceneFlushFreesTheTable : Prop :=
  ∀ s : State,
    (s.phase ≠ .ready → exec .sceneFlush s = .next s) ∧
    (s.phase = .ready → ∃ t : State, exec .sceneFlush s = .next t ∧
      (∀ l, (t.units.get l).state = .idle ∧ (t.units.get l).current = (s.units.get l).current ∧
        (t.units.get l).listBase = (s.units.get l).listBase ∧ (t.units.get l).enable = (s.units.get l).enable ∧
        (t.units.get l).window = (s.units.get l).window) ∧
      (∀ i, (t.entries.get i).record = none ∧ (t.entries.get i).gen = (s.entries.get i).gen ∧
        (t.entries.get i).unused = (s.entries.get i).unused) ∧
      t.sceneTime = s.sceneTime ∧ t.pointer = s.pointer ∧ t.clipMem = s.clipMem ∧ t.phase = s.phase ∧
      t.spentIntervals = s.spentIntervals ∧ t.pending = s.pending ∧
      (∀ l, (t.units.get l).summary &&& ~~~Cause.clipAttention.bit = 0) ∧
      ((∀ i c, (s.clips.get i).clip = some c → c.state ≠ .draining) → ∀ l, (t.units.get l).summary = 0) ∧
      (∀ h r, s.recordAt h = some r → h ∉ t.spentList ∧ (r.state ≠ .spent →
        h ∉ t.armSet ∧ h ∉ t.grantQueue ∧ (∀ k, h ∉ (t.triggers.get k).armList) ∧
        (∀ x ∈ t.timer, x.kind.isStartOrStopOf h = false) ∧ (∀ n, s.slotOf h = some n → t.slots.get n = .free) ∧
        (∀ p, r.ports.getLsbD p.val = true → ∀ m ∈ (t.ports.get p).members, m.handle ≠ h) ∧
        ∀ c, r.staged = some c → (∀ y ∈ c.portReservations, ∀ z ∈ (t.ports.get y.port).reservations, z.handle ≠ h) ∧
          (∀ k, c.apply = .on k → h ∉ (t.triggers.get k).applyList) ∧
          (∀ time, c.apply = .at time → ∀ x ∈ t.timer, x.kind ≠ .atApply h c.number))) ∧
      t.poolFree = 320 ∧
      (∀ c x, s.clipAt c = some x → x.state ≠ .loading → x.refs = s.holders c →
        (x.state ≠ .draining ∨ x.refs = 0 → t.clipAt c = some { x with refs := 0 }) ∧
        (x.state = .draining → 0 < x.refs → t.clipAt c = none ∧ (t.clips.get c.slot).note =
          some ⟨c, x.lane, { x.causes with drained := true }, x.corrected, x.uncorrectable⟩)) ∧
      (∃ ws : List HostWrite, t.writes = s.writes ++ ws ∧ t.nextTag = s.nextTag + ws.length ∧
        ws.map (·.lane) = (List.finRange 4).filter (fun l => s.inPhase l .held) ∧
        ∀ i w, ws[i]? = some w → s.AbortedWrite w.lane (s.nextTag + i) w) ∧
      t.inFlight = s.inFlight.filter (fun m => (List.finRange 4).all fun l => !(s.inPhase l .held && m.isHeldDone l)) ∧
      (∀ l x n c, (s.units.get l).state = .active .held → s.findLoad (fun y => y.lane == l) = some (x, n) →
        s.clipAt x.clip = some c → c.state = .loading → c.refs = 0 →
        t.clipAt x.clip = some { c with state := .defined, computedCrc := none }) ∧
      (∀ x ∈ t.loadQueue, (s.units.get x.lane).state ≠ .active .held) ∧
      (∀ x, t.copy = some x → (s.units.get x.load.lane).state ≠ .active .held) ∧
      (∀ k, t.triggers.get k = { s.triggers.get k with
        armList := (t.triggers.get k).armList, applyList := (t.triggers.get k).applyList }) ∧
      (∀ p, t.ports.get p = { s.ports.get p with
        members := (t.ports.get p).members, reservations := (t.ports.get p).reservations
        exchange := (t.ports.get p).exchange, job := (t.ports.get p).job }) ∧
      t.fades = s.fades ∧ t.cues = s.cues ∧
      ((∀ l, (s.units.get l).state ≠ .active .handed) → t.walk = s.walk) ∧
      (∀ l, (s.units.get l).state = .active .handed → t.walk = none) ∧
      t = { s with
        units := t.units, walk := t.walk, writes := t.writes, nextTag := t.nextTag, inFlight := t.inFlight, sent := t.sent
        loadQueue := t.loadQueue, copy := t.copy, clips := t.clips, ports := t.ports, entries := t.entries
        spentList := t.spentList, armSet := t.armSet, grantQueue := t.grantQueue, timer := t.timer, triggers := t.triggers
        slots := t.slots, strayReads := t.strayReads })

/-! ## Walking a list -/

/-- FETCH_HEADER_DONE: the whole extent of the block is judged against the host window, and the request area is read; with a
length out of range the header alone is judged, and the block waits for its turn with its area unread. FETCH_REQUEST_DONE: the
unit holds the fetched block and waits for its turn. -/
def Obligations.AReadBlockWaitsForItsTurn : Prop :=
  ∀ (s : State) (l : Lane),
    (∀ h : Header, (s.units.get l).state = .active .fetchHeader →
      ∃ t : State, exec (.fetchHeaderDone l (s.units.get l).tag h) s = .next t ∧ (∀ k, k ≠ l → t.units.get k = s.units.get k) ∧
        (h.reqLen.toNat ≤ 62 → h.resLen.toNat ≤ 64 →
          windowAllows (s.units.get l).window (s.units.get l).current.toNat
            (16 + 8 * h.reqLen.toNat + 8 * h.resLen.toNat) = true →
          t.units.get l = { s.units.get l with
            state := .active .fetchRequest, block := some ⟨h, none⟩, answer := none, tag := s.nextTag } ∧
          t = { s with units := t.units, nextTag := s.nextTag + 1 }) ∧
        (h.reqLen.toNat ≤ 62 → h.resLen.toNat ≤ 64 →
          windowAllows (s.units.get l).window (s.units.get l).current.toNat
            (16 + 8 * h.reqLen.toNat + 8 * h.resLen.toNat) = false → t = s.faultUnit l .window) ∧
        (62 < h.reqLen.toNat ∨ 64 < h.resLen.toNat →
          windowAllows (s.units.get l).window (s.units.get l).current.toNat 16 = true →
          t.units.get l = { s.units.get l with state := .active .waitingTurn, block := some ⟨h, none⟩ } ∧
          t = { s with units := t.units })) ∧
    (∀ (b : Block) (area : Option Request), (s.units.get l).state = .active .fetchRequest →
      (s.units.get l).block = some b → ∃ t : State, exec (.fetchRequestDone l (s.units.get l).tag area) s = .next t ∧
        (∀ k, k ≠ l → t.units.get k = s.units.get k) ∧
        t.units.get l = { s.units.get l with state := .active .waitingTurn, block := some ⟨b.header, area⟩ } ∧
        t = { s with units := t.units })

/-- HAND_OVER: when no unit is HANDED, the block of the first lane after the pointer that stands in WAITING_TURN is handed over,
and the pointer moves to that lane; a block of bad form is answered with BAD_REQUEST and is handed to no owner. A block is of
good form when its kind is known, its lengths are in range, SUSPEND and END are not both set, no flag bit above 4 is set, its
request area holds the fields of its kind and is long enough for them, and every field of a fixed encoding holds a value of it.
How many bytes of its request area the fields take to which the spec gives no encoding is free (notes/assumptions/42.md), and a
stop point or cue takes the same bytes whatever its kind (notes/assumptions/59.md). -/
def Obligations.TheRotationHandsOver : Prop :=
  (∀ b : Block, b.formOk = true ↔ b.header.kind.toNat ≤ 21 ∧ b.header.reqLen.toNat ≤ 62 ∧ b.header.resLen.toNat ≤ 64 ∧
     ¬(b.header.suspend = true ∧ b.header.stop = true) ∧ (∀ i, 5 ≤ i → b.header.flags.getLsbD i = false) ∧
     ∃ r, b.area = some r ∧ r.kind = b.header.kind ∧ r.bytesNeeded ≤ 8 * b.header.reqLen.toNat ∧ r.Encoded) ∧
  (∀ (r : Request) (e : RawHandle), r.encodedBytes ≤ r.bytesNeeded ∧ (r.encodedBytes ≤ 496 → r.bytesNeeded ≤ 496) ∧
     (r = .nop → r.bytesNeeded = 0) ∧ (∀ q, r = .start q → r.bytesNeeded = 11) ∧ (∀ t, r = .setTime t → r.bytesNeeded = 8) ∧
     (r = .pause e ∨ r = .resume e ∨ r = .queryEmitter e ∨ r = .retireClip e ∨ r = .queryClip e ∨ r = .retireFade e →
       r.bytesNeeded = 2) ∧
     ∀ n, r = .restartPort n ∨ r = .queryPort n ∨ r = .flushLane n → r.bytesNeeded = 1) ∧
  ∀ (s : State) (l : Lane) (b : Block),
    (∀ k, (s.units.get k).state ≠ .active .handed) →
    (s.units.get l).state = .active .waitingTurn → (s.units.get l).block = some b →
    (∀ k, (s.units.get k).state = .active .waitingTurn → (l.val + 3 - s.pointer.val) % 4 ≤ (k.val + 3 - s.pointer.val) % 4) →
    (b.formOk = true → ∃ t : State, exec .handOver s = .next t ∧ t.pointer = l ∧ (∀ k, k ≠ l → t.units.get k = s.units.get k) ∧
      t.units.get l = { s.units.get l with state := .active .handed } ∧ t = { s with units := t.units, pointer := l }) ∧
    (b.formOk = false → exec .handOver s = .next ({ s with pointer := l }.answer l ⟨.badRequest, .empty⟩))

/-- The answer to a block: the unit is WRITING with the answer, and the completion write is issued with as many whole words as
the result area holds, TRUNCATED where the answer is longer and the block is no SCAN; nothing else changes. How many words an
answer takes is free, and that a refused SCAN sets no TRUNCATED is the model's choice: both are notes/assumptions/7.md. That the
address of a result area beyond the top of the 64 bits wraps is its choice of notes/assumptions/60.md. HELD_REQUEST_COMPLETE:
the unit in HELD is answered with the status and result that the owner sent; a unit that is no longer HELD drops the completion.
NOP has no checks beyond form: it completes with DONE and no result, and changes nothing. -/
def Obligations.ABlockIsAnswered : Prop :=
  (∀ (s : State) (l : Lane) (b : Block) (a : Answer), (s.units.get l).block = some b →
     ∃ t : State, ∃ full, s.answer l a = t ∧ full = a.fullWords b.header ∧ (∀ k, k ≠ l → t.units.get k = s.units.get k) ∧
       t.units.get l = { s.units.get l with state := .active .writing, answer := some a, tag := s.nextTag } ∧
       t.writes = s.writes ++ [⟨s.nextTag, l, (s.units.get l).current,
         (s.units.get l).current + BitVec.ofNat 64 (16 + 8 * b.header.reqLen.toNat), a, min full b.header.resLen.toNat,
         decide (b.header.resLen.toNat < full ∧ b.header.kind ≠ 18)⟩] ∧
       t = { s with units := t.units, nextTag := s.nextTag + 1, writes := t.writes }) ∧
  (∀ (s : State) (l : Lane) (a : Answer) (n : Nat) (before after : List Message),
     s.inFlight = before ++ .heldDone l a n :: after → (∀ m ∈ before, m.isHeldDone l = false) →
     ((s.units.get l).state = .active .held →
       exec (.heldRequestComplete l) s = .next ({ s with inFlight := before ++ after }.answer l a)) ∧
     ((s.units.get l).state ≠ .active .held →
       exec (.heldRequestComplete l) s = .next { s with inFlight := before ++ after })) ∧
  (∀ (s : State) (l : Lane), s.Handed l .nop anyFlag → exec (.nop l) s = .next (s.answer l ⟨.done, .empty⟩))

/-- WRITE_DONE of a completion write in flight: the result words, then the status and the number of result words, then the
completion byte stand in host memory, sent in this order, before any message of a cause (that the three are recorded when the
write ends is the model's choice of notes/assumptions/43.md). The unit that waits for it acts on its block's flags; where no
unit waits for it, nothing else happens. END takes it to IDLE with RU_IDLE, SUSPEND to SUSPENDED with RU_SUSPENDED and the
current block kept, both after BLOCK_NOTIFY where NOTIFY is set; with neither, the fetch begins at the link read at fetch. -/
def Obligations.ACompletedBlockActsOnItsFlags : Prop :=
  (∀ (s : State) (l : Lane) (b : Block) (w : HostWrite), (s.units.get l).state = .active .writing →
    (s.units.get l).block = some b → s.writeOf l (s.units.get l).tag = some w →
    ∃ t : State, ∃ n messages, exec (.writeDone l (s.units.get l).tag) s = .next t ∧
      t.sent = s.sent ++ [.resultWrite w.lane w.resultArea w.answer.result w.words,
        .statusWrite w.lane (w.block + 0x0C) w.answer.status w.words,
        .completionWrite w.lane (w.block + 0x0F) w.truncated] ++ messages ∧ (∀ m ∈ messages, m = .interrupt l) ∧
      (n = if b.header.notify then (s.units.get l).summary ||| Cause.blockNotify.bit else (s.units.get l).summary) ∧
      (∀ k, k ≠ l → t.units.get k = s.units.get k) ∧
      t = { s with units := t.units, nextTag := t.nextTag, sent := t.sent, writes := s.writes.erase w } ∧
      (b.header.stop = true → t.units.get l = { s.units.get l with
        state := .idle, block := none, answer := none, summary := n ||| Cause.ruIdle.bit }) ∧
      (b.header.stop = false → b.header.suspend = true → t.units.get l = { s.units.get l with
        state := .suspended, block := none, answer := none, summary := n ||| Cause.ruSuspended.bit }) ∧
      (b.header.stop = false → b.header.suspend = false → b.header.link.toNat % 16 = 0 →
        windowAllows (s.units.get l).window b.header.link.toNat 16 = true → t.units.get l = { s.units.get l with
          state := .active .fetchHeader, current := b.header.link, block := none, answer := none, tag := s.nextTag,
          summary := n })) ∧
  (∀ (s : State) (l : Lane) (tag : Nat) (w : HostWrite), s.writeOf l tag = some w →
    (s.units.get l).state ≠ .active .writing ∨ (s.units.get l).tag ≠ tag →
    exec (.writeDone l tag) s = .next { s with
      writes := s.writes.erase w
      sent := s.sent ++ [.resultWrite w.lane w.resultArea w.answer.result w.words,
        .statusWrite w.lane (w.block + 0x0C) w.answer.status w.words,
        .completionWrite w.lane (w.block + 0x0F) w.truncated] })

/-! ## Requests on emitters -/

/-- A request that its checks refuse is answered with the refusal, and changes nothing else, for every kind with checks of its
own. The checks of an emitter handle, in their order, seen in PAUSE, RESUME and QUERY_EMITTER: a slot above 95 is RANGE, a
handle that is not accepted STALE_HANDLE, another lane's record LANE_DENIED except for L0, and for PAUSE and RESUME a record in
the wrong state WRONG_STATE. Each refusal changes nothing else. -/
def Obligations.ARefusalChangesNothing : Prop :=
  (∀ (s : State) (l : Lane) (a : Answer),
     (∀ q late, s.Handed l (.create q) (fun h => h.lateOk == late) → s.checkCreate l q late = .error a →
       exec (.create l q late) s = .next (s.answer l a)) ∧
     (∀ q late, s.Handed l (.start q) (fun h => h.lateOk == late) → s.checkStart l q late = .error a →
       exec (.start l q late) s = .next (s.answer l a)) ∧
     (∀ q, s.Handed l (.modify q) anyFlag → s.checkModify l q = .error a → exec (.modify l q) s = .next (s.answer l a)) ∧
     (∀ e, s.Handed l (.pause e) anyFlag → s.checkPlaying l e .onAir = .error a → exec (.pause l e) s = .next (s.answer l a)) ∧
     (∀ e, s.Handed l (.resume e) anyFlag → s.checkPlaying l e .paused = .error a →
       exec (.resume l e) s = .next (s.answer l a)) ∧
     (∀ q, s.Handed l (.retire q) anyFlag → s.checkRetire l q = .error a → exec (.retire l q) s = .next (s.answer l a)) ∧
     (∀ e clear, s.Handed l (.queryEmitter e) (fun h => h.clear == clear) → s.findEmitter l e = .error a →
       exec (.queryEmitter l e clear) s = .next (s.answer l a)) ∧
     (∀ q, s.Handed l (.defineFade q) anyFlag → s.checkDefineFade l q = .error a →
       exec (.defineFade l q) s = .next (s.answer l a)) ∧
     (∀ f, s.Handed l (.retireFade f) anyFlag → s.checkRetireFade l f = .error a →
       exec (.retireFade l f) s = .next (s.answer l a)) ∧
     (∀ b, s.Handed l (.flushLane b) anyFlag → checkFlush l b = .error a → exec (.flushLane l b) s = .next (s.answer l a)) ∧
     (∀ q, s.Handed l (.defineClip q) anyFlag → s.checkDefineClip q = .error a →
       exec (.defineClip l q) s = .next (s.answer l a)) ∧
     (∀ q, s.Handed l (.loadClip q) anyFlag → s.checkLoadClip l q = .error a → exec (.loadClip l q) s = .next (s.answer l a)) ∧
     (∀ c, s.Handed l (.retireClip c) anyFlag → s.checkRetireClip l c = .error a →
       exec (.retireClip l c) s = .next (s.answer l a)) ∧
     (∀ c clear, s.Handed l (.queryClip c) (fun h => h.clear == clear) → s.checkQueryClip l c = .error a →
       exec (.queryClip l c clear) s = .next (s.answer l a)) ∧
     (∀ q, s.Handed l (.configurePort q) anyFlag → s.checkConfigure l q = .error a →
       exec (.configurePort l q) s = .next (s.answer l a)) ∧
     (∀ p, s.Handed l (.restartPort p) anyFlag → s.checkRestart l p = .error a →
       exec (.restartPort l p) s = .next (s.answer l a)) ∧
     (∀ q, s.Handed l (.setOutput q) anyFlag → s.checkSetOutput l q = .error a →
       exec (.setOutput l q) s = .next (s.answer l a)) ∧
     (∀ p clear, s.Handed l (.queryPort p) (fun h => h.clear == clear) → s.findPort l p = .error a →
       exec (.queryPort l p clear) s = .next (s.answer l a)) ∧
     (∀ x clear, s.Handed l (.scan x) (fun h => h.clear == clear) → checkScanStart x = .error a →
       exec (.scan l x clear) s = .next (s.answer l a)) ∧
     (∀ q, s.Handed l (.setLane q) anyFlag → checkSetLane l q = .error a → exec (.setLane l q) s = .next (s.answer l a)) ∧
     (∀ t, s.Handed l (.setTime t) anyFlag → s.checkSetTime l = .error a → exec (.setTime l t) s = .next (s.answer l a))) ∧
  (∀ (s : State) (l : Lane) (raw : RawHandle) (clear : Bool) (c : Instr) (flag : Header → Bool) (q : Request),
     ((c, q) = (.pause l raw, .pause raw) ∨ (c, q) = (.resume l raw, .resume raw) ∨
       (c, q) = (.queryEmitter l raw clear, .queryEmitter raw)) →
     flag = (if q = .queryEmitter raw then fun h => h.clear == clear else anyFlag) → s.Handed l q flag →
     (96 ≤ raw.slot.toNat → exec c s = .next (s.answer l ⟨.range, .empty⟩)) ∧
     (∀ h, raw.emitter = some h →
       (s.recordAt h = none → exec c s = .next (s.answer l ⟨.staleHandle, .empty⟩)) ∧
       (∀ r, s.recordAt h = some r →
         (l ≠ 0 → l ≠ r.lane → exec c s = .next (s.answer l ⟨.laneDenied, .empty⟩)) ∧
         (l = 0 ∨ l = r.lane →
           (q = .pause raw → r.state ≠ .onAir → exec c s = .next (s.answer l ⟨.wrongState, .empty⟩)) ∧
           (q = .resume raw → r.state ≠ .paused → exec c s = .next (s.answer l ⟨.wrongState, .empty⟩))))))

/-- A CREATE that is accepted has met its checks: those before the choice of its entry (State.CreatePlaced: form, ranges,
handles, rights, the clip's state, the ports' heads and rates, placement and delays), enough free path records, a place and room
at every port of the set, and a start and stop point not already past. Its entry is the lowest-numbered FREE one, or, where none
is FREE, the SPENT one at the head of the spent list, whose handle is then reported as reclaimed; where there is neither, the
CREATE that has met the checks before is refused with NO_ENTRY and changes nothing else. That an index byte above 63 is refused
also on a path record without a fade is the model's choice beside R14 and 9.9 (notes/assumptions/55.md). CREATE: the chosen
entry holds a new record of the acting lane, under the generation that R7 gives, with its fields from the request and its
running fields at their first values, STAGED, each path with its rotation accumulator 0 and its fade position at the starting
point, taken modulo the profile's present number of points, with the elapsed time 0; the clip gains a reference and each port of
the set a member with the record's weight; a stop-point expiry is asked for at a stop point; no other entry changes. A start
point then acts as a START with it from the state so made (State.Started): the record's waiting place, its start reference and
its start lead or start-time expiry, and those of the records of the time arm set that a lead taken within the CREATE covers. -/
def Obligations.CreateMakesARecord : Prop :=
  (∀ (s : State) (l : Lane) (q : CreateReq) (late : Bool) (x : CreateFound), s.checkCreate l q late = .ok x →
     s.CreatePlaced l q x.loop ∧ x.start = q.start.given.point ∧ x.stop = q.stop.change.value ∧ x.cue = q.cue.change.value ∧
     (∀ i, (s.entries.get i).record = none → (∀ j, j < i → (s.entries.get j).record ≠ none) →
       x.entry = i ∧ x.reclaimed = none) ∧
     ((∀ i, (s.entries.get i).record ≠ none) →
       ∃ h rest, s.spentList = h :: rest ∧ x.entry = h.slot ∧ x.reclaimed = some h) ∧
     q.paths.length ≤ s.poolFree ∧
     (∀ p : Port, q.ports.getLsbD p.val = true → (s.ports.get p).members.length + (s.ports.get p).reservedJoins ≤ 15 ∧
       (s.ports.get p).committed + weightOf (q.paths.map (·.vals)) ≤ (s.ports.get p).budget) ∧
     (∀ t, x.start = some (.at t) → late = true ∨ s.now < ticks t) ∧ (∀ t, x.stop = some t → s.now < ticks t)) ∧
  (∀ (s : State) (l : Lane) (q : CreateReq) (late : Bool) (m : LoopMode),
     s.Handed l (.create q) (fun h => h.lateOk == late) → s.CreatePlaced l q m → (∀ i, (s.entries.get i).record ≠ none) →
     s.spentList = [] → exec (.create l q late) s = .next (s.answer l ⟨.noEntry, .empty⟩)) ∧
  (∀ (s : State) (l : Lane) (q : CreateReq) (late : Bool) (x : CreateFound),
     s.Handed l (.create q) (fun h => h.lateOk == late) → s.checkCreate l q late = .ok x →
     ∃ v u : State, ∃ h r, exec (.create l q late) s = .next (u.answer l ⟨.done, .created h x.reclaimed⟩) ∧ h.slot = x.entry ∧
       h.gen = (if (s.entries.get x.entry).unused then (s.entries.get x.entry).gen else nextGen (s.entries.get x.entry).gen) ∧
       v.entries.get x.entry = ⟨h.gen, false, some r⟩ ∧ s.otherEntries v x.entry ∧ r.state = .staged ∧
       r.lane = l ∧ r.clip = q.clip.clip ∧ r.priority = q.priority ∧ r.startOffset = q.startOffset.toNat ∧
       r.loop = x.loop ∧ r.carrier = q.carrier.toInt ∧ r.ports = q.ports ∧ r.pathVals = q.paths.map (·.vals) ∧
       (∀ p ∈ r.paths, p.acc = 0 ∧ s.FadeEntered p.vals p.pos) ∧
       r.startPoint = none ∧ r.stopPoint = x.stop ∧ r.cue = x.cue ∧ r.staged = none ∧ r.changeCounter = 0 ∧
       r.playPosition = q.startOffset.toNat ∧ r.passCount = 0 ∧ r.cueCount = 0 ∧ r.lateAmount = 0 ∧ r.condition = .clean ∧
       r.gapSamples = 0 ∧ r.supersededCount = 0 ∧ r.passedOver = 0 ∧ r.attention = false ∧ r.causes = {} ∧ r.spent = none ∧
       r.startRef = none ∧ r.startMark = false ∧ r.primedNoted = false ∧ r.takenLate = false ∧ r.ramp = none ∧
       (∀ c, s.clipAt q.clip.clip = some c → v.clipAt q.clip.clip = some { c with refs := c.refs + 1 }) ∧
       s.otherClips v q.clip.clip.slot ∧
       (∀ p, v.ports.get p = if q.ports.getLsbD p.val = true then (s.ports.get p).join h r.weight else s.ports.get p) ∧
       v = { s with
         entries := v.entries, spentList := s.spentList.filter (fun k => k.slot != x.entry), clips := v.clips
         ports := v.ports, timer := s.timer ++ (x.stop.map fun t => ⟨.stopPoint h t, ticks t⟩).toList } ∧
       (x.start = none → u = v) ∧ ∀ p, x.start = some p → ∃ k, v.Started u h r k p)

/-- START of a STAGED record: NOW queues it with the count as its start reference; ON joins the trigger's arm list; AT asks for
a start lead 20,000 ticks before its time, or, within the lead, takes the lead at once: the record is queued with a start-time
expiry, behind the records of the time arm set with the same start time, which the same lead covers; or, late under LATE_OK,
queues it with its start time as the reference (State.Started). -/
def Obligations.StartArmsOrQueues : Prop :=
  ∀ (s : State) (l : Lane) (q : StartReq) (late : Bool) (h : EmitterHandle) (r : Record) (p : StartPoint),
    s.Handed l (.start q) (fun h => h.lateOk == late) → q.start.given.point = some p → q.emitter.emitter = some h →
    s.recordAt h = some r → (l = 0 ∨ l = r.lane) → (∀ t, p = .on t → l = 0 ∨ l = (s.triggers.get t).owner) →
    r.state = .staged → (∀ t u, p = .at t → r.stopPoint = some u → t.toNat < u.toNat) →
    (∀ t, p = .at t → late = true ∨ s.now < ticks t) →
    ∃ u : State, ∃ k, exec (.start l q late) s = .next (u.answer l ⟨.done, .started k.state⟩) ∧ s.Started u h r k p

/-- PAUSE of an ON_AIR record freezes its play position, and RESUME of a PAUSED record puts it ON_AIR again where it stood; each
result carries the play position, and nothing else of the record changes. A slot that is paused with room in its window may
issue the next run. Where the ONCE tail had already ended, RESUME sends the end-of-clip report again; otherwise it sends
nothing. -/
def Obligations.PauseAndResumeKeepThePosition : Prop :=
  ∀ (s : State) (l : Lane) (raw : RawHandle) (h : EmitterHandle) (r : Record),
    raw.emitter = some h → s.recordAt h = some r → (l = 0 ∨ l = r.lane) →
    (s.Handed l (.pause raw) anyFlag → r.state = .onAir →
      ∃ u : State, exec (.pause l raw) s = .next (u.answer l ⟨.done, .position r.playPosition⟩) ∧
        u.recordAt h = some { r with state := .paused } ∧ s.otherEntries u h.slot ∧
        (s.slotOf h = none → u.slots = s.slots ∧ u.nextTag = s.nextTag) ∧
        (∀ n c, s.slotOf h = some n → s.clipAt r.clip = some c → (∀ m, m ≠ n → u.slots.get m = s.slots.get m) ∧
          (s.slots.get n).RunIssued (u.slots.get n) s.nextTag u.nextTag h { r with state := .paused } c) ∧
        u = { s with entries := u.entries, slots := u.slots, nextTag := u.nextTag }) ∧
    (s.Handed l (.resume raw) anyFlag → r.state = .paused →
      ∃ u : State, exec (.resume l raw) s = .next (u.answer l ⟨.done, .position r.playPosition⟩) ∧
        u.recordAt h = some { r with state := .onAir } ∧ s.otherEntries u h.slot ∧
        (s.slotOf h = none → u.inFlight = s.inFlight) ∧
        (∀ n, s.slotOf h = some n →
          u.inFlight = s.inFlight ++ if (s.slots.get n).endFound = true then [.endOfClip h] else []) ∧
        u = { s with entries := u.entries, inFlight := u.inFlight })

/-- QUERY_EMITTER returns the record's image in every state and, without CLEAR, changes nothing; with CLEAR it returns the image
as it stood, and then empties the record's cause set and clears its attention flag, and changes nothing else. QUERY_CLIP returns
the clip's image and, with CLEAR, then empties its cause set and clears its flag, and changes nothing else. QUERY_PORT returns
the port's image and, with CLEAR, then empties its cause set and clears its flag, and changes nothing else. -/
def Obligations.QueriesReadAndClear : Prop :=
  (∀ (s : State) (l : Lane) (raw : RawHandle) (clear : Bool) (h : EmitterHandle) (r : Record),
     s.Handed l (.queryEmitter raw) (fun h => h.clear == clear) → raw.emitter = some h → s.recordAt h = some r →
     (l = 0 ∨ l = r.lane) →
     ∃ u : State, ∃ img, exec (.queryEmitter l raw clear) s = .next (u.answer l ⟨.done, .emitterImage img⟩) ∧
       img = s.emitterImage h r ∧ img.state = r.state ∧ img.attention = r.attention ∧ img.causes = r.causes ∧
       img.spent = r.spent ∧ img.playPosition = r.playPosition ∧ s.otherEntries u h.slot ∧
       (clear = false → u = s) ∧
       (clear = true → u.recordAt h = some { r with attention := false, causes := {} } ∧ u = { s with entries := u.entries })) ∧
  (∀ (s : State) (l : Lane) (raw : RawHandle) (clear : Bool) (h : ClipHandle) (c : Clip),
     s.Handed l (.queryClip raw) (fun h => h.clear == clear) → h = raw.clip → s.clipAt h = some c →
     (l = 0 ∨ l = c.lane ∨ c.lane = 0) →
     ∃ u : State, ∃ img, exec (.queryClip l raw clear) s = .next (u.answer l ⟨.done, .clipImage img⟩) ∧
       img = s.clipImage h c ∧ img.state = c.state ∧ img.refs = c.refs ∧ img.computedCrc = c.computedCrc ∧
       img.attention = c.attention ∧ img.causes = c.causes ∧ img.corrected = c.corrected ∧
       img.uncorrectable = c.uncorrectable ∧ (clear = false → u = s) ∧
       (clear = true → u.clipAt h = some { c with attention := false, causes := {} } ∧ s.otherClips u h.slot ∧
         u = { s with clips := u.clips })) ∧
  (∀ (s : State) (l : Lane) (b : BitVec 8) (clear : Bool) (p : Port),
     s.Handed l (.queryPort b) (fun h => h.clear == clear) → b.toNat = p.val → (l = 0 ∨ l = (s.ports.get p).owner) →
     ∃ u : State, ∃ img, exec (.queryPort l b clear) s = .next (u.answer l ⟨.done, .portImage img⟩) ∧
       img = s.portImage p ∧ img.owner = (s.ports.get p).owner ∧ img.head = (s.ports.get p).head ∧
       img.rate = s.portRate p ∧ img.freeRoom = ((s.ports.get p).budget : Int) - (s.ports.get p).committed ∧
       img.attention = (s.ports.get p).attention ∧ img.causes = (s.ports.get p).causes ∧ (clear = false → u = s) ∧
       (clear = true → u.ports.get p = { s.ports.get p with attention := false, causes := {} } ∧ s.otherPorts u p ∧
         u = { s with ports := u.ports }))

/-- RETIRE. A record STAGED, ARMED, WAITING, PRIMING or PAUSED goes SPENT by the spent procedure (State.enterSpent) with cause
RETIRED, whatever the ramp; so does one ON_AIR or FADING with ramp 0; one that is FAULTED goes SPENT with cause FAULT_RETIRED. A
record ON_AIR with a ramp above 0 is FADING to the ramp end, 10,000 ticks for each millisecond away, and its staged change is
discarded. A SPENT record, and a FADING one with a ramp above 0, is answered with WRONG_STATE and nothing in it changes. -/
def Obligations.RetireActsByState : Prop :=
  ∀ (s : State) (l : Lane) (q : RetireReq) (h : EmitterHandle) (r : Record),
    s.Handed l (.retire q) anyFlag → q.emitter.emitter = some h → q.ramp ≤ 5000 → s.recordAt h = some r →
    (l = 0 ∨ l = r.lane) →
    (r.state = .staged ∨ r.state = .armed ∨ r.state = .waiting ∨ r.state = .priming ∨ r.state = .paused ∨
      (r.state = .onAir ∧ q.ramp = 0) ∨ (r.state = .fading ∧ q.ramp = 0) →
      ∃ u : State, u = s.enterSpent h .retired ∧
        exec (.retire l q) s = .next (u.answer l ⟨.done, .spent .retired r.playPosition⟩) ∧ s.WentSpent u h r .retired ∧
        s.otherEntries u h.slot) ∧
    (r.state = .faulted →
      ∃ u : State, u = s.enterSpent h .faultRetired ∧
        exec (.retire l q) s = .next (u.answer l ⟨.done, .spent .faultRetired r.playPosition⟩) ∧
        s.WentSpent u h r .faultRetired ∧ s.otherEntries u h.slot) ∧
    (r.state = .onAir → 0 < q.ramp →
      ∃ u : State, exec (.retire l q) s = .next (u.answer l ⟨.done, .fading (s.now + q.ramp * 10000)⟩) ∧
        u.recordAt h = some { r with
          state := .fading, staged := none, ramp := some ⟨q.ramp * 10000, s.now + q.ramp * 10000⟩ } ∧
        s.otherEntries u h.slot ∧ ⟨.rampEnd h, s.now + q.ramp * 10000⟩ ∈ u.timer ∧
        u = { s with entries := u.entries, timer := u.timer, triggers := u.triggers, ports := u.ports }) ∧
    (r.state = .spent ∨ (r.state = .fading ∧ 0 < q.ramp) →
      exec (.retire l q) s = .next (s.answer l ⟨.wrongState, .empty⟩))

/-- The spent procedure gives back what a record in a holding state holds: its staged change goes with its port
reservations, its place in an apply list and its AT apply expiry (a NEXT_FRAME one is left to be dropped); it stands in no
waiting place, its start and stop items are withdrawn, its slot is free (a read in flight is not recalled), its handle is no
member of a port of its set, its clip has lost one reference, a DRAINING clip that loses the last one being EMPTY with its
drained note and CLIP_ATTENTION; and its entry is the last of the spent list with a spent expiry at the end of its lane's
interval, or, with the interval 0, FREE at once. SPENT_EXPIRY: an accepted handle whose record is SPENT leaves the spent
list and its entry is FREE, with the generation kept and the mark as it stood; in any other case the expiry is dropped. -/
def Obligations.GoingSpentGivesEverythingBack : Prop :=
  (∀ (s : State) (h : EmitterHandle) (r : Record) (cause : SpentCause), s.recordAt h = some r → r.state ≠ .spent →
     ∃ u : State, s.enterSpent h cause = u ∧ s.WentSpent u h r cause ∧ s.otherEntries u h.slot ∧
       (s.spentIntervals.get r.lane ≠ 0 → u.spentList = s.spentList ++ [h] ∧
         ⟨.spent h, s.now + s.spentIntervals.get r.lane * 10000⟩ ∈ u.timer) ∧
       (s.spentIntervals.get r.lane = 0 → u.spentList = s.spentList.filter (fun k => k != h) ∧
         ∀ x ∈ u.timer, x ∈ s.timer) ∧
       h ∉ u.armSet ∧ h ∉ u.grantQueue ∧ (∀ t, h ∉ (u.triggers.get t).armList) ∧
       (∀ x ∈ u.timer, x.kind.isStartOrStopOf h = false) ∧
       (∀ n, s.slotOf h = some n → u.slots.get n = .free ∧ (∀ m, m ≠ n → u.slots.get m = s.slots.get m) ∧
         u.strayReads = s.strayReads ++ (s.slots.get n).fetch.toList) ∧
       (s.slotOf h = none → u.slots = s.slots ∧ u.strayReads = s.strayReads) ∧
       (∀ p, r.ports.getLsbD p.val = true → ∀ m ∈ (u.ports.get p).members, m.handle ≠ h) ∧
       (∀ p, r.ports.getLsbD p.val = false → (u.ports.get p).members = (s.ports.get p).members) ∧
       (∀ c, r.staged = some c →
         (∀ y ∈ c.portReservations, ∀ z ∈ (u.ports.get y.port).reservations, z.handle ≠ h) ∧
         (∀ t, c.apply = .on t → h ∉ (u.triggers.get t).applyList) ∧
         (∀ t, c.apply = .at t → ∀ x ∈ u.timer, x.kind ≠ .atApply h c.number) ∧
         (c.apply = .nextFrame → ∀ x ∈ s.timer, x.kind = .nextFrameApply h c.number → x ∈ u.timer)) ∧
       (∀ c, s.clipAt r.clip = some c → 1 < c.refs ∨ c.state ≠ .draining →
         u.clipAt r.clip = some { c with refs := c.refs - 1 }) ∧
       (∀ c, s.clipAt r.clip = some c → c.refs ≤ 1 → c.state = .draining →
         u.clips.get r.clip.slot = { s.clips.get r.clip.slot with
           clip := none
           note := some ⟨r.clip, c.lane, { c.causes with drained := true }, c.corrected, c.uncorrectable⟩ } ∧
         (u.units.get c.lane).summary &&& Cause.clipAttention.bit ≠ 0) ∧
       s.otherClips u r.clip.slot ∧
       u = { s with
         entries := u.entries, timer := u.timer, triggers := u.triggers, armSet := u.armSet, grantQueue := u.grantQueue,
         slots := u.slots, strayReads := u.strayReads, ports := u.ports, clips := u.clips, units := u.units, sent := u.sent,
         spentList := u.spentList }) ∧
  (∀ (s : State) (h : EmitterHandle), .expiry (.spent h) ∈ s.inFlight →
     (∀ r, s.recordAt h = some r → r.state = .spent →
       ∃ u : State, exec (.spentExpiry h) s = .next u ∧ u.entries.get h.slot = { s.entries.get h.slot with record := none } ∧
         u.recordAt h = none ∧ s.otherEntries u h.slot ∧ u.spentList = s.spentList.filter (fun k => k != h) ∧
         u = { s with
           entries := u.entries, spentList := u.spentList, inFlight := s.inFlight.erase (.expiry (.spent h)) }) ∧
     ((∀ r, s.recordAt h = some r → r.state ≠ .spent) →
       exec (.spentExpiry h) s = .next { s with inFlight := s.inFlight.erase (.expiry (.spent h)) }))

/-- FLUSH_LANE takes every entry of the named lane to FREE, its generation and mark kept, and reports how many there were;
another lane's entries stay as they are. What each flushed record held is given back: its places in the spent list, the time arm
set, the arm and apply lists and the grant queue, its timer items, its stream slot, its port memberships and its reservations,
and its clip reference, a DRAINING clip that loses the last one being EMPTY with its drained note and CLIP_ATTENTION. The
places, slots, memberships, reservations and timer items of every other handle stay; of a trigger nothing but its lists changes,
of a port nothing but its accounts, and of the units nothing but CLIP_ATTENTION. -/
def Obligations.FlushLaneFreesOneLane : Prop :=
  ∀ (s : State) (l target : Lane) (b : BitVec 8) (flushed : EmitterHandle → Prop), s.Handed l (.flushLane b) anyFlag →
    b.toNat = target.val → (l = 0 ∨ l = target) → (∀ h, flushed h ↔ ∃ r, s.recordAt h = some r ∧ r.lane = target) →
    ∃ u : State, exec (.flushLane l b) s =
        .next (u.answer l ⟨.done, .flushed (s.records.filter fun r => r.lane == target).length⟩) ∧
      (∀ i r, (s.entries.get i).record = some r → r.lane = target → u.entries.get i = { s.entries.get i with record := none }) ∧
      (∀ i, (∀ r, (s.entries.get i).record = some r → r.lane ≠ target) → u.entries.get i = s.entries.get i) ∧
      (∀ h r, s.recordAt h = some r → r.lane = target → h ∉ u.spentList ∧ (r.state ≠ .spent →
        h ∉ u.armSet ∧ h ∉ u.grantQueue ∧ (∀ k, h ∉ (u.triggers.get k).armList) ∧
        (∀ x ∈ u.timer, x.kind.isStartOrStopOf h = false) ∧ (∀ n, s.slotOf h = some n → u.slots.get n = .free) ∧
        (∀ p, r.ports.getLsbD p.val = true → ∀ m ∈ (u.ports.get p).members, m.handle ≠ h) ∧
        ∀ c, r.staged = some c → (∀ y ∈ c.portReservations, ∀ z ∈ (u.ports.get y.port).reservations, z.handle ≠ h) ∧
          (∀ k, c.apply = .on k → h ∉ (u.triggers.get k).applyList) ∧
          (∀ time, c.apply = .at time → ∀ x ∈ u.timer, x.kind ≠ .atApply h c.number))) ∧
      (∀ h, ¬ flushed h → (h ∈ u.spentList ↔ h ∈ s.spentList) ∧ (h ∈ u.armSet ↔ h ∈ s.armSet) ∧
        (h ∈ u.grantQueue ↔ h ∈ s.grantQueue) ∧ (∀ n, (s.slots.get n).owner = some h → u.slots.get n = s.slots.get n) ∧
        (∀ k, (h ∈ (u.triggers.get k).armList ↔ h ∈ (s.triggers.get k).armList) ∧
          (h ∈ (u.triggers.get k).applyList ↔ h ∈ (s.triggers.get k).applyList)) ∧
        ∀ p, (∀ m, m.handle = h → (m ∈ (u.ports.get p).members ↔ m ∈ (s.ports.get p).members)) ∧
          ∀ z, z.handle = h → (z ∈ (u.ports.get p).reservations ↔ z ∈ (s.ports.get p).reservations)) ∧
      (∀ x ∈ s.timer, (∀ h, flushed h → x.kind.isStartOrStopOf h = false ∧ ∀ n, x.kind ≠ .atApply h n) → x ∈ u.timer) ∧
      (∀ c x n, s.clipAt c = some x → n = s.laneHolders c target → n ≤ x.refs →
        (x.state ≠ .draining ∨ n < x.refs ∨ n = 0 → u.clipAt c = some { x with refs := x.refs - n }) ∧
        (x.state = .draining → n = x.refs → 0 < n → u.clipAt c = none ∧
          (u.clips.get c.slot).note = some ⟨c, x.lane, { x.causes with drained := true }, x.corrected, x.uncorrectable⟩ ∧
          (u.units.get x.lane).summary &&& Cause.clipAttention.bit ≠ 0)) ∧
      ((∀ i c, (s.clips.get i).clip = some c → c.state ≠ .draining) → u.units = s.units ∧ u.sent = s.sent) ∧
      (∀ k, u.units.get k = { s.units.get k with summary := (u.units.get k).summary } ∧
        (u.units.get k).summary ||| Cause.clipAttention.bit = (s.units.get k).summary ||| Cause.clipAttention.bit) ∧
      (∀ k, u.triggers.get k = { s.triggers.get k with
        armList := (u.triggers.get k).armList, applyList := (u.triggers.get k).applyList }) ∧
      (∀ p, u.ports.get p = { s.ports.get p with
        members := (u.ports.get p).members, reservations := (u.ports.get p).reservations }) ∧
      u = { s with
        entries := u.entries, spentList := u.spentList, armSet := u.armSet, grantQueue := u.grantQueue, timer := u.timer,
        triggers := u.triggers, slots := u.slots, strayReads := u.strayReads, ports := u.ports, clips := u.clips,
        units := u.units, sent := u.sent }

/-- RAMP_END_EXPIRY: a FADING record goes SPENT with cause RETIRED and no attention, at its play position; an expiry that
finds the record in any other state, or a stale handle, is dropped. STOP_POINT_EXPIRY: a STAGED record loses its stop point;
a record ARMED through FADING goes SPENT with cause STOP_POINT and SPENT_UNREQUESTED; a FAULTED or SPENT record, and an
expiry for a time that is not the record's stop time, are left. END_OF_CLIP_REPORT of an entry ON_AIR or FADING takes it to
SPENT with cause END_OF_CLIP and SPENT_UNREQUESTED; a report that finds any other state is dropped. Each of the three ends
is the spent procedure (State.enterSpent, as GoingSpentGivesEverythingBack states it) on the state without the message. That
the final play position of END_OF_CLIP is the one at entering SPENT, also where a change to LOOP has moved it from the clip
length, is the model's choice of notes/assumptions/46.md. -/
def Obligations.EndingsTakeTheRecordToSpent : Prop :=
  (∀ (s : State) (h : EmitterHandle), .expiry (.rampEnd h) ∈ s.inFlight →
     (∀ r, s.recordAt h = some r → r.state = .fading →
       ∃ u : State, exec (.rampEndExpiry h) s = .next u ∧
         u = State.enterSpent { s with inFlight := s.inFlight.erase (.expiry (.rampEnd h)) } h .retired ∧
         s.WentSpent u h r .retired ∧ s.otherEntries u h.slot) ∧
     ((∀ r, s.recordAt h = some r → r.state ≠ .fading) →
       exec (.rampEndExpiry h) s = .next { s with inFlight := s.inFlight.erase (.expiry (.rampEnd h)) })) ∧
  (∀ (s : State) (h : EmitterHandle) (time : BitVec 64), .expiry (.stopPoint h time) ∈ s.inFlight →
     ∀ w, w = { s with inFlight := s.inFlight.erase (.expiry (.stopPoint h time)) } →
     (∀ r, s.recordAt h = some r → r.stopPoint = some time →
       (r.state = .staged → ∃ u : State, exec (.stopPointExpiry h time) s = .next u ∧
         u.recordAt h = some { r with stopPoint := none } ∧ s.otherEntries u h.slot ∧ u = { w with entries := u.entries }) ∧
       (r.state ≠ .staged → r.state ≠ .faulted → r.state ≠ .spent → ∃ u : State, exec (.stopPointExpiry h time) s = .next u ∧
         u = w.enterSpent h .stopPoint ∧ s.WentSpent u h r .stopPoint ∧ s.otherEntries u h.slot) ∧
       (r.state = .faulted ∨ r.state = .spent → exec (.stopPointExpiry h time) s = .next w)) ∧
     ((∀ r, s.recordAt h = some r → r.stopPoint ≠ some time) → exec (.stopPointExpiry h time) s = .next w)) ∧
  (∀ (s : State) (h : EmitterHandle), .endOfClip h ∈ s.inFlight →
     (∀ r, s.recordAt h = some r → r.state = .onAir ∨ r.state = .fading →
       ∃ u : State, exec (.endOfClipReport h) s = .next u ∧
         u = State.enterSpent { s with inFlight := s.inFlight.erase (.endOfClip h) } h .endOfClip ∧
         s.WentSpent u h r .endOfClip ∧ s.otherEntries u h.slot) ∧
     ((∀ r, s.recordAt h = some r → r.state ≠ .onAir ∧ r.state ≠ .fading) →
       exec (.endOfClipReport h) s = .next { s with inFlight := s.inFlight.erase (.endOfClip h) }))

/-! ## Staged changes -/

/-- A MODIFY that is accepted has passed its checks (State.ModifyPasses: form and ranges, handles and rights, the record's
state, ports, placement, delays, the pool, places and headroom, and times not already past), and they have found what the
request names and carries (ModifyReq.Gives). MODIFY with the apply point NOW: the change is numbered, a staged change that was
present is superseded, and the record takes the new values at once (State.Applied): its paths, with the fade positions and
accumulators that R29 and R35 keep; its ports are told of the new port set and weight, the timer of the stop point, the slot of
the loop. MODIFY with a later apply point: the new values wait in the record's staged change, under its number and the moment of
staging, with its pool reservation and the port reservations that R99 gives: a join with the whole new weight at each port that
the new set adds, the increase at each port of both sets where the new weight is the greater, and none elsewhere; every present
value of the record stays. The change waits for the next frame boundary, for its time, or in its trigger's apply list. A slot
that takes over a new loop keeps the samples of its window and its failed run as far as the new order would play them next, and
its tail where it still stands at the clip length; its read in flight stays in flight, as a discarded one where its run is not
the next of the new order. That a tail left by a change to LOOP goes on with a change back to ONCE is the model's choice of
notes/assumptions/41.md, and what makes a run the next one of the new order its reading of notes/assumptions/18.md; that an
index byte above 63 is refused also on a path record without a fade, its choice beside R14 and 9.9 (notes/assumptions/55.md). A
path whose fade is another, and a path that is added, begins at its starting point index modulo the profile's present number of
points, with the elapsed time 0. -/
def Obligations.ModifyAppliesOrStages : Prop :=
  (∀ (s : State) (l : Lane) (q : ModifyReq) (x : ModifyFound), s.checkModify l q = .ok x →
     q.Gives x ∧ s.ModifyPasses l q x) ∧
  (∀ (s : State) (l : Lane) (q : ModifyReq) (x : ModifyFound), s.Handed l (.modify q) anyFlag →
     s.checkModify l q = .ok x → x.apply = none →
     s.recordAt x.handle = some x.record ∧ ∃ w u : State, ∃ r n, exec (.modify l q) s =
         .next (u.answer l ⟨.done, .modified n .applied (x.record.staged.map (·.number))⟩) ∧
       n = (if x.record.changeCounter < 65535 then x.record.changeCounter + 1 else 1) ∧
       s.Numbered w x.handle x.record n ∧ w.recordAt x.handle = some r ∧ w.Applied u x.handle r x.values) ∧
  (∀ (s : State) (l : Lane) (q : ModifyReq) (x : ModifyFound) (a : ApplyPoint), s.Handed l (.modify q) anyFlag →
     s.checkModify l q = .ok x → x.apply = some a →
     s.recordAt x.handle = some x.record ∧ ∃ w u : State, ∃ r c, exec (.modify l q) s =
         .next (u.answer l ⟨.done, .modified c.number .staged (x.record.staged.map (·.number))⟩) ∧
       s.Numbered w x.handle x.record c.number ∧ w.recordAt x.handle = some r ∧
       c.number = (if x.record.changeCounter < 65535 then x.record.changeCounter + 1 else 1) ∧ c.apply = a ∧
       c.stagedAt = s.sceneTime ∧ c.new = x.values ∧ c.pathReservation = x.values.extraPaths x.record ∧
       c.portReservations = x.values.claims x.record ∧
       (∀ y, y ∈ c.portReservations ↔
         (x.values.portsAfter x.record).getLsbD y.port.val = true ∧
         (x.record.ports.getLsbD y.port.val = false ∧ y.join = true ∧ y.increase = x.values.weightAfter x.record ∨
           x.record.ports.getLsbD y.port.val = true ∧ y.join = false ∧ x.record.weight < x.values.weightAfter x.record ∧
             y.increase = x.values.weightAfter x.record - x.record.weight)) ∧
       u.recordAt x.handle = some { r with staged := some c } ∧ w.otherEntries u x.handle.slot ∧
       (a = .nextFrame → u.timer = w.timer ++ [⟨.nextFrameApply x.handle c.number, nextBoundary s.now⟩] ∧
         u.triggers = w.triggers) ∧
       (∀ t, a = .at t → u.timer = w.timer ++ [⟨.atApply x.handle c.number, ticks t⟩] ∧ u.triggers = w.triggers) ∧
       (∀ t, a = .on t → u.timer = w.timer ∧ (∀ k, k ≠ t → u.triggers.get k = w.triggers.get k) ∧
         u.triggers.get t = { w.triggers.get t with applyList := (w.triggers.get t).applyList ++ [x.handle] }) ∧
       (∀ p, (∀ y ∈ c.portReservations, y.port ≠ p) → u.ports.get p = w.ports.get p) ∧
       (∀ y ∈ c.portReservations, u.ports.get y.port = { w.ports.get y.port with reservations :=
         ((w.ports.get y.port).reservations.filter fun z => z.handle != x.handle) ++ [⟨x.handle, y.join, y.increase⟩] }) ∧
       u = { w with entries := u.entries, ports := u.ports, timer := u.timer, triggers := u.triggers }) ∧
  (∀ (x y : StreamSlot) (r : Record) (len : Nat) (order : Nat → Nat), y = x.reorder r len →
     (r.loop = .once → order 0 = r.playPosition ∧ ∀ i, order (i + 1) = order i + 1) →
     (∀ a b, r.loop = .loop a b → order 0 = (if len ≤ r.playPosition then a else r.playPosition) ∧
       ∀ i, order (i + 1) = if order i + 1 = b ∨ len ≤ order i + 1 then a else order i + 1) →
     ∃ m stop, m ≤ x.window.length ∧ y.window = x.window.take m ∧ y.nextPos = order m ∧
       (∀ i w, i < m → x.window[i]? = some w → w.pos = order i) ∧ (∀ w, x.window[m]? = some w → w.pos ≠ order m) ∧
       (r.loop = .once → stop = len) ∧
       (∀ a b, r.loop = .loop a b → (order m < b → stop = b) ∧ (b ≤ order m → stop = len)) ∧
       y.fetch = x.fetch.map (fun f =>
         if f.run.start = order m ∧ f.run.start + f.run.len ≤ stop then f else { f with discarded := true }) ∧
       y.failed = x.failed.filter (fun z => z.start == order m && decide (z.start + z.len ≤ stop)) ∧
       (y.fetchState = if x.failed.isSome = true ∧ y.failed = none then .running else x.fetchState) ∧
       (r.loop ≠ .once ∨ r.playPosition < len → y.tail = none ∧ y.endFound = false) ∧
       (r.loop = .once → y.heldTail = none) ∧
       (∀ t, x.tail = some t → (r.loop ≠ .once → y.heldTail = some (t, x.endFound)) ∧
         (r.loop = .once → len ≤ r.playPosition → y.tail = some t ∧ y.endFound = x.endFound)) ∧
       (∀ t e, x.tail = none → x.heldTail = some (t, e) → (r.loop ≠ .once → y.heldTail = some (t, e)) ∧
         (r.loop = .once → len ≤ r.playPosition → y.tail = some t ∧ y.endFound = e)) ∧
       (x.tail = none → x.heldTail = none → y.heldTail = none ∧ y.tail = none ∧ y.endFound = false) ∧
       y = { x with
         window := y.window, nextPos := y.nextPos, fetch := y.fetch, failed := y.failed, fetchState := y.fetchState
         tail := y.tail, endFound := y.endFound, heldTail := y.heldTail })

/-- AT_APPLY_EXPIRY and NEXT_FRAME_APPLY_EXPIRY apply the staged change of a live record when it has the expiry's number and an
apply point of the expiry's kind: the change leaves its place, and its values are applied as those of a MODIFY with NOW are.
Otherwise the expiry is dropped. -/
def Obligations.AnApplyExpiryApplies : Prop :=
  ∀ (s : State) (h : EmitterHandle) (n : Nat) (c : Instr) (e : Expiry) (kind : ApplyPoint → Bool),
    ((c, e) = (.atApplyExpiry h n, .atApply h n) ∧ kind = ApplyPoint.isAt ∨
      (c, e) = (.nextFrameApplyExpiry h n, .nextFrameApply h n) ∧ kind = ApplyPoint.isNextFrame) →
    .expiry e ∈ s.inFlight →
    (∀ r d, s.recordAt h = some r → r.staged = some d → r.state.isLive = true → d.number = n → kind d.apply = true →
      ∃ u : State, exec c s = .next u ∧
        State.AppliedStaged { s with inFlight := s.inFlight.erase (.expiry e) } u h r d) ∧
    ((∀ r d, s.recordAt h = some r → r.staged = some d → r.state.isLive = true → ¬(d.number = n ∧ kind d.apply = true)) →
      exec c s = .next { s with inFlight := s.inFlight.erase (.expiry e) })

/-! ## Fade profiles -/

/-- DEFINE_FADE without a handle takes the lowest-numbered EMPTY slot with its next generation, for the acting lane. DEFINE_FADE
with a handle: an unused profile takes the new values at once and loses a pending replacement; a used one keeps its values, and
the new ones wait as its pending replacement for one expiry at the next frame boundary. RETIRE_FADE: a used profile is refused
with IN_USE and its use count; an unused one leaves its slot EMPTY, the generation kept, and its handle is accepted no more.
That an expiry raised and not yet taken counts as the one outstanding is the model's inference of notes/assumptions/15.md. -/
def Obligations.FadeProfilesAreDefinedAndRetired : Prop :=
  (∀ (s : State) (l : Lane) (q : DefineFadeReq) (m : FadeMode) (i : FadeNo), s.Handed l (.defineFade q) anyFlag →
     q.profile = none → 2 ≤ q.points.length → q.points.length ≤ 64 → fadeModeOf q.mode = some m →
     (∀ g ∈ q.points, g ≤ 1024) → 1 ≤ q.step → q.step ≤ 1000 → (s.fades.get i).profile = none →
     (∀ j, j < i → (s.fades.get j).profile.isSome = true) →
     ∃ u : State, ∃ g, exec (.defineFade l q) s = .next (u.answer l ⟨.done, .fade ⟨i, g⟩ .immediate 0⟩) ∧
       g = (if (s.fades.get i).unused then (s.fades.get i).gen else nextGen (s.fades.get i).gen) ∧
       u.fades.get i = ⟨g, false, some ⟨l, ⟨q.points, q.step, m⟩, none⟩⟩ ∧ (∀ j, j ≠ i → u.fades.get j = s.fades.get j) ∧
       u = { s with fades := u.fades }) ∧
  (∀ (s : State) (l : Lane) (q : DefineFadeReq) (m : FadeMode) (raw : RawHandle) (f : FadeHandle) (p : FadeProfile),
     s.Handed l (.defineFade q) anyFlag → q.profile = some raw → raw.fade = some f → 2 ≤ q.points.length →
     q.points.length ≤ 64 → fadeModeOf q.mode = some m → (∀ g ∈ q.points, g ≤ 1024) → 1 ≤ q.step → q.step ≤ 1000 →
     s.fadeAt f = some p → (l = 0 ∨ l = p.lane) →
     (s.fadeUses f = 0 → ∃ u : State, exec (.defineFade l q) s = .next (u.answer l ⟨.done, .fade f .immediate 0⟩) ∧
       u.fadeAt f = some { p with curve := ⟨q.points, q.step, m⟩, replacement := none } ∧
       (∀ j, j ≠ f.slot → u.fades.get j = s.fades.get j) ∧ u = { s with fades := u.fades }) ∧
     (0 < s.fadeUses f → ∃ u : State, exec (.defineFade l q) s = .next (u.answer l ⟨.done, .fade f .pending (s.fadeUses f)⟩) ∧
       u.fadeAt f = some { p with replacement := some ⟨q.points, q.step, m⟩ } ∧
       (∀ j, j ≠ f.slot → u.fades.get j = s.fades.get j) ∧
       (u.timer = if s.outstanding (.fadeReplacement f) then s.timer
         else s.timer ++ [⟨.fadeReplacement f, nextBoundary s.now⟩]) ∧
       u = { s with fades := u.fades, timer := u.timer })) ∧
  (∀ (s : State) (l : Lane) (raw : RawHandle) (f : FadeHandle) (p : FadeProfile), s.Handed l (.retireFade raw) anyFlag →
     raw.fade = some f → s.fadeAt f = some p → (l = 0 ∨ l = p.lane) →
     (0 < s.fadeUses f → exec (.retireFade l raw) s = .next (s.answer l ⟨.inUse, .uses (s.fadeUses f)⟩)) ∧
     (s.fadeUses f = 0 → ∃ u : State, exec (.retireFade l raw) s = .next (u.answer l ⟨.done, .uses 0⟩) ∧
       u.fades.get f.slot = { s.fades.get f.slot with profile := none } ∧ u.fadeAt f = none ∧
       (∀ j, j ≠ f.slot → u.fades.get j = s.fades.get j) ∧ u = { s with fades := u.fades }))

/-- FADE_REPLACEMENT_EXPIRY: the pending values become the profile's, and every path of a record in a holding state that names
the profile has its point index taken modulo the new number of points, with the elapsed time 0; a path that does not name it is
not moved. Without an accepted handle and a pending replacement the expiry is dropped. -/
def Obligations.AReplacementTakesItsFrame : Prop :=
  ∀ (s : State) (f : FadeHandle), .expiry (.fadeReplacement f) ∈ s.inFlight →
    (∀ p c, s.fadeAt f = some p → p.replacement = some c →
      ∃ u : State, exec (.fadeReplacementExpiry f) s = .next u ∧ u.fadeAt f = some { p with curve := c, replacement := none } ∧
        (∀ j, j ≠ f.slot → u.fades.get j = s.fades.get j) ∧
        (∀ i r, (s.entries.get i).record = some r → r.state ≠ .spent →
          ∃ q, (u.entries.get i).record = some { r with paths := q } ∧ q = r.paths.map (fun x =>
            if x.vals.names f = true then { x with pos := x.pos.map (fun y => ⟨y.index % c.points.length, 0⟩) } else x)) ∧
        (∀ i, (u.entries.get i).gen = (s.entries.get i).gen ∧ (u.entries.get i).unused = (s.entries.get i).unused) ∧
        u = { s with
          fades := u.fades, entries := u.entries, inFlight := s.inFlight.erase (.expiry (.fadeReplacement f)) }) ∧
    ((∀ p, s.fadeAt f = some p → p.replacement = none) →
      exec (.fadeReplacementExpiry f) s = .next { s with inFlight := s.inFlight.erase (.expiry (.fadeReplacement f)) })

/-- A fade position on a curve whose gains are at most 1,024 stays a position of the curve as it advances. Its gain is that of
its point plus the difference to the next point's gain times the elapsed time over the step duration, the fraction dropped, and
so lies between the gains of the two points; the next point of the last one is point 0 in CYCLE mode, and in ONCE mode the last
point's gain stands. At the start of a step it is the point's own gain, and it is never above 1,024. -/
def Obligations.AFadeGainStaysOnItsCurve : Prop :=
  ∀ (c : FadeCurve) (p : FadePos), 2 ≤ c.points.length → 1 ≤ c.step → (∀ g ∈ c.points, g ≤ 1024) →
    p.index < c.points.length → p.elapsed < c.step * 10000 →
    (c.advance p).index < c.points.length ∧ (c.advance p).elapsed < c.step * 10000 ∧ c.gain p ≤ 1024 ∧
    (p.elapsed = 0 → c.points[p.index]? = some (c.gain p)) ∧
    (∀ a b, c.points[p.index]? = some a →
      (p.index + 1 < c.points.length ∧ c.points[p.index + 1]? = some b ∨
        p.index + 1 = c.points.length ∧ c.mode = .cycle ∧ c.points[0]? = some b) →
      (c.gain p : Int) = a + (((b : Int) - a) * p.elapsed).tdiv (c.step * 10000) ∧ min a b ≤ c.gain p ∧ c.gain p ≤ max a b) ∧
    (p.index + 1 = c.points.length → c.mode = .once → c.points[p.index]? = some (c.gain p)) ∧
    (p.index + 1 < c.points.length → p.elapsed + 1 < c.step * 10000 → c.advance p = ⟨p.index, p.elapsed + 1⟩) ∧
    (p.index + 1 < c.points.length → p.elapsed + 1 = c.step * 10000 → c.advance p = ⟨p.index + 1, 0⟩) ∧
    (p.index + 1 = c.points.length → c.mode = .once → c.advance p = p) ∧
    (p.index + 1 = c.points.length → c.mode = .cycle → p.elapsed + 1 < c.step * 10000 →
      c.advance p = ⟨p.index, p.elapsed + 1⟩) ∧
    (p.index + 1 = c.points.length → c.mode = .cycle → p.elapsed + 1 = c.step * 10000 → c.advance p = ⟨0, 0⟩)

/-! ## Scene time -/

/-- SET_TIME: a lane other than L0 is refused with LANE_DENIED, and L0 with IN_USE and four counts while an absolute item is
pending. Otherwise the count takes the new value, and every duration is carried across the jump: ramp ends, spent expiries,
frame-bound expiries, start references, trigger candidates and cue pulses; fade positions, play positions and settled levels
stay. The next frame boundary, here and for every frame-bound expiry, is the first whole multiple of 10,000 that the count
advances onto: above the count, and at most 10,000 ahead. That an edge event or a crossing report already on its way keeps the
time it carries is the model's choice of notes/assumptions/37.md; that an absolute item which has been raised and not yet taken
is no longer pending, its choice of notes/assumptions/48.md. -/
def Obligations.SetTimeCarriesDurations : Prop :=
  (∀ t : Int, t < nextBoundary t ∧ nextBoundary t ≤ t + 10000 ∧ ∃ k : Int, nextBoundary t = k * 10000) ∧
  ∀ (s : State) (l : Lane) (time : BitVec 64), s.Handed l (.setTime time) anyFlag →
    (l ≠ 0 → exec (.setTime l time) s = .next (s.answer l ⟨.laneDenied, .empty⟩)) ∧
    (l = 0 → (∃ x ∈ s.timer, x.kind.isAbsolute = true) →
      exec (.setTime l time) s = .next (s.answer l ⟨.inUse, .absolute s.armSet.length
        (s.timer.filter fun x => x.kind.isStartTime).length (s.timer.filter fun x => x.kind.isAtApply).length
        (s.timer.filter fun x => x.kind.isStopPoint).length⟩)) ∧
    (l = 0 → (∀ x ∈ s.timer, x.kind.isAbsolute = false) → ∃ u : State, ∃ d : Int, d = ticks time - s.now ∧
      exec (.setTime l time) s = .next (u.answer l ⟨.done, .time s.sceneTime time⟩) ∧ u.sceneTime = time ∧
      u.timer = s.timer.map (fun x =>
        { x with due := if x.kind.isFrameBound then nextBoundary (ticks time) else x.due + d }) ∧
      (∀ t, u.triggers.get t = { s.triggers.get t with candidate := (s.triggers.get t).candidate.map (· + d) }) ∧
      (∀ q, s.cues.get q = .idle → u.cues.get q = .idle) ∧
      (∀ q t, s.cues.get q = .pulsing t → u.cues.get q = .pulsing (t + d)) ∧
      (∀ i r, (s.entries.get i).record = some r → ∃ k, u.entries.get i = { s.entries.get i with record := some k } ∧
        (r.state = .waiting ∨ r.state = .priming → k = { r with startRef := r.startRef.map (· + d) }) ∧
        (r.state = .fading → k = { r with ramp := r.ramp.map fun x => { x with stop := x.stop + d } }) ∧
        (r.state ≠ .waiting → r.state ≠ .priming → r.state ≠ .fading → k = r)) ∧
      (∀ i, (s.entries.get i).record = none → u.entries.get i = s.entries.get i) ∧
      u = { s with
        sceneTime := time, timer := u.timer, triggers := u.triggers, cues := u.cues, entries := u.entries })

/-- START_LEAD_EXPIRY: every record of the time arm set that is ARMED with that start time leaves the set, is WAITING with its
start time as reference, joins the grant queue in the order of the set, and is given a start-time expiry, which is raised at
once where the lead is taken at or after the start time; the other records of the set stay armed. So it is where a raised lead
for that time names a record that still stands ARMED with it; where the record of every such lead has left, the leads are
dropped and nothing else changes. -/
def Obligations.ALeadExpiryQueuesItsRecords : Prop :=
  ∀ (s : State) (time : BitVec 64) (k : EmitterHandle) (due : EmitterHandle → Bool),
    (∀ h, due h = true ↔ ∃ r, s.recordAt h = some r ∧ r.state = .armed ∧ r.startPoint = some (.at time)) →
    (.expiry (.startLead k time) ∈ s.inFlight → due k = true → s.armSet.Nodup →
      ∃ u : State, exec (.startLeadExpiry time) s = .next u ∧ u.armSet = s.armSet.filter (fun h => !due h) ∧
        u.grantQueue = s.grantQueue ++ s.armSet.filter due ∧
        (∀ h r, h ∈ s.armSet → due h = true → s.recordAt h = some r →
          u.recordAt h = some { r with state := .waiting, startRef := some (ticks time) }) ∧
        (u.timer = (s.timer.filter fun x => !(s.armSet.any fun h => due h && x.kind == .startLead h time)) ++
          if s.now < ticks time then (s.armSet.filter due).map (fun h => ⟨.startTime h, ticks time⟩) else []) ∧
        (u.inFlight = (s.inFlight.filter fun m => !m.isLeadOf time) ++
          if s.now < ticks time then [] else (s.armSet.filter due).map fun h => Message.expiry (.startTime h)) ∧
        (∀ i, (∀ h ∈ s.armSet, due h = true → h.slot ≠ i) → u.entries.get i = s.entries.get i) ∧
        u = { s with
          entries := u.entries, armSet := u.armSet, grantQueue := u.grantQueue, timer := u.timer, inFlight := u.inFlight }) ∧
    ((∀ h, .expiry (.startLead h time) ∈ s.inFlight → due h = false) →
      exec (.startLeadExpiry time) s = .next { s with inFlight := s.inFlight.filter fun m => !m.isLeadOf time })

/-- What START_TIME_EXPIRY and PRIMED_REPORT make of a record. WAITING, or PRIMING with no primed report taken, takes the
start-time mark; PRIMING of an AT start without mark or LATE_OK notes the primed report; the later of the two sends the record
ON_AIR, and so does the primed report of any other start: its advance count and accumulators begin at 0, its late amount is the
time since its start reference (0 where that still lies ahead, after a SET_TIME to a lower value: the model's choice of
notes/assumptions/52.md; for a start-time expiry taken after its time it is the ticks gone by: its choice of
notes/assumptions/56.md), LATE_START is raised for a late start that is not NOW, and its start-time expiry is withdrawn. In any
other state both are dropped. -/
def Obligations.ThePrimedRecordGoesOnAir : Prop :=
  ∀ (s w : State) (h : EmitterHandle) (c : Instr) (m : Message),
    (c, m) = (.startTimeExpiry h, .expiry (.startTime h)) ∨ (c, m) = (.primedReport h, .primed h) → m ∈ s.inFlight →
    w = { s with inFlight := s.inFlight.erase m } →
    (∀ r, s.recordAt h = some r →
      (c = .startTimeExpiry h → r.state = .waiting ∨ (r.state = .priming ∧ r.primedNoted = false) →
        ∃ u : State, exec c s = .next u ∧ u.recordAt h = some { r with startMark := true } ∧ s.otherEntries u h.slot ∧
          u = { w with entries := u.entries }) ∧
      (c = .primedReport h → r.state = .priming → (∃ t, r.startPoint = some (.at t)) → r.takenLate = false →
        r.startMark = false → ∃ u : State, exec c s = .next u ∧ u.recordAt h = some { r with primedNoted := true } ∧
          s.otherEntries u h.slot ∧ u = { w with entries := u.entries }) ∧
      (r.state = .priming → (c = .startTimeExpiry h ∧ r.primedNoted = true) ∨
          (c = .primedReport h ∧ ((∀ t, r.startPoint ≠ some (.at t)) ∨ r.takenLate = true ∨ r.startMark = true)) →
        ∃ u : State, ∃ k late, exec c s = .next u ∧ late = (match r.startRef with
            | some f => (s.now - f).toNat
            | none => 0) ∧
          u.recordAt h = some k ∧ s.otherEntries u h.slot ∧ k = { r with
            state := .onAir, lateAmount := late, advance := 0, paths := r.paths.map (fun p => { p with acc := 0 }),
            attention := k.attention, causes := k.causes } ∧
          (0 < late → r.startPoint ≠ some .now → k.attention = true ∧ k.causes = { r.causes with lateStart := true }) ∧
          (late = 0 ∨ r.startPoint = some .now → k.attention = r.attention ∧ k.causes = r.causes) ∧
          (∀ x ∈ u.timer, x.kind ≠ .startTime h) ∧
          u = { w with entries := u.entries, timer := u.timer, units := u.units, sent := u.sent }) ∧
      (r.state ≠ .waiting → r.state ≠ .priming → exec c s = .next w)) ∧
    (s.recordAt h = none → exec c s = .next w)

/-! ## Triggers and cue lines -/

/-- TRIGGER_LINE_CHANGE: a level other than the settled one sets the candidate to the scene time unless it is set, and the
settled level makes it absent; while the part is STARTING the line is not watched. TRIGGER_QUALIFIED: a candidate held for the
qualification time settles the level, and an edge event is sent where that level is the active one, at the candidate time plus
the qualification time. A candidate that has been held that long when the line changes settles first, in the same way, and is
not lost; that this holds also of a change at that very scene time is the model's inference of notes/assumptions/32.md. -/
def Obligations.ATriggerQualifiesItsLine : Prop :=
  ∀ (s : State) (t : Trigger),
    (∀ high, s.phase = .ready → (∀ c, (s.triggers.get t).candidate = some c →
        s.now < c + 10 * (s.triggers.get t).qualification ∨ (s.triggers.get t).line = (s.triggers.get t).settled) →
      ∃ u : State, exec (.triggerLineChange t high) s = .next u ∧
      u.triggers.get t = { s.triggers.get t with
        line := high,
        candidate := if high = (s.triggers.get t).settled then none else some ((s.triggers.get t).candidate.getD s.now) } ∧
      (∀ k, k ≠ t → u.triggers.get k = s.triggers.get k) ∧ u = { s with triggers := u.triggers }) ∧
    (∀ high, s.phase ≠ .ready → ∃ u : State, exec (.triggerLineChange t high) s = .next u ∧
      u.triggers.get t = { s.triggers.get t with line := high } ∧
      (∀ k, k ≠ t → u.triggers.get k = s.triggers.get k) ∧ u = { s with triggers := u.triggers }) ∧
    (∀ c, s.phase = .ready → (s.triggers.get t).candidate = some c → c + 10 * (s.triggers.get t).qualification ≤ s.now →
      (s.triggers.get t).line ≠ (s.triggers.get t).settled → ∃ u : State, exec (.triggerQualified t) s = .next u ∧
        u.triggers.get t = { s.triggers.get t with settled := (s.triggers.get t).line, candidate := none } ∧
        (∀ k, k ≠ t → u.triggers.get k = s.triggers.get k) ∧
        (u.inFlight = if (s.triggers.get t).line = decide ((s.triggers.get t).edge = .rising)
          then s.inFlight ++ [.edge t (c + 10 * (s.triggers.get t).qualification)] else s.inFlight) ∧
        u = { s with triggers := u.triggers, inFlight := u.inFlight }) ∧
    (∀ c high, s.phase = .ready → (s.triggers.get t).candidate = some c →
      c + 10 * (s.triggers.get t).qualification ≤ s.now → (s.triggers.get t).line ≠ (s.triggers.get t).settled →
      ∃ u : State, exec (.triggerLineChange t high) s = .next u ∧
        u.triggers.get t = { s.triggers.get t with
          line := high, settled := (s.triggers.get t).line
          candidate := if high = (s.triggers.get t).line then none else some s.now } ∧
        (∀ k, k ≠ t → u.triggers.get k = s.triggers.get k) ∧
        (u.inFlight = if (s.triggers.get t).line = decide ((s.triggers.get t).edge = .rising)
          then s.inFlight ++ [.edge t (c + 10 * (s.triggers.get t).qualification)] else s.inFlight) ∧
        u = { s with triggers := u.triggers, inFlight := u.inFlight })

/-- TRIGGER_EDGE: the staged changes of the apply list are applied in its order, also that of a record which stands in both
lists, each as a MODIFY with NOW applies its values; every ARMED record of the arm list is WAITING with the edge time as its
start reference and joins the grant queue in arming order, and both lists are left empty, the note as it was. An edge that finds
both lists empty sets TRIGGER_UNCLAIMED for the owner and is noted. -/
def Obligations.AnEdgeIsWorkedOrUnclaimed : Prop :=
  ∀ (s : State) (t : Trigger) (time : Int), .edge t time ∈ s.inFlight →
    ((s.triggers.get t).armList = [] → (s.triggers.get t).applyList = [] →
      ∃ u : State, exec (.triggerEdge t time) s = .next u ∧
        (∀ n, (s.triggers.get t).note = some n →
          u.triggers.get t = { s.triggers.get t with note := some ⟨time, if n.count < 255 then n.count + 1 else n.count⟩ }) ∧
        ((s.triggers.get t).note = none → u.triggers.get t = { s.triggers.get t with note := some ⟨time, 1⟩ }) ∧
        (∀ k, k ≠ t → u.triggers.get k = s.triggers.get k) ∧
        (u.units.get (s.triggers.get t).owner).summary =
          (s.units.get (s.triggers.get t).owner).summary ||| Cause.triggerUnclaimed.bit ∧
        u = { s with
          triggers := u.triggers, units := u.units, sent := u.sent, inFlight := s.inFlight.erase (.edge t time) }) ∧
    ((s.triggers.get t).armList ≠ [] ∨ (s.triggers.get t).applyList ≠ [] → (s.triggers.get t).armList.Nodup →
      ∃ u : State, exec (.triggerEdge t time) s = .next u ∧
        u.triggers.get t = { s.triggers.get t with armList := [], applyList := [] } ∧
        u.grantQueue = s.grantQueue ++ (s.triggers.get t).armList.filter (fun h => match s.recordAt h with
          | some r => r.state == .armed
          | none => false) ∧
        (∀ h r, h ∈ (s.triggers.get t).armList → s.recordAt h = some r → r.state = .armed →
          ∃ k, u.recordAt h = some k ∧ k.state = .waiting ∧ k.startRef = some time ∧ k.lane = r.lane ∧ k.clip = r.clip) ∧
        (∃ v : State, State.AppliedInTurn { s with inFlight := s.inFlight.erase (.edge t time) } v (s.triggers.get t).applyList ∧
          (∀ h r, h ∈ (s.triggers.get t).armList → v.recordAt h = some r → u.recordAt h = some
            (if r.state = .armed then { r with state := .waiting, startRef := some time } else r)) ∧
          (∀ i, (∀ h ∈ (s.triggers.get t).armList, h.slot ≠ i) → u.entries.get i = v.entries.get i) ∧
          (∀ k, k ≠ t → u.triggers.get k = v.triggers.get k) ∧
          u = { v with entries := u.entries, grantQueue := u.grantQueue, triggers := u.triggers }) ∧
        ((s.triggers.get t).applyList.Nodup → ∀ h r d, h ∈ (s.triggers.get t).applyList → s.recordAt h = some r →
          r.staged = some d → ∃ k, r.TookChange k d.new ∧
            u.recordAt h = some (if h ∈ (s.triggers.get t).armList ∧ r.state = .armed
              then { k with state := .waiting, startRef := some time } else k)) ∧
        (∀ i, (∀ h ∈ (s.triggers.get t).armList ++ (s.triggers.get t).applyList, h.slot ≠ i) →
          u.entries.get i = s.entries.get i) ∧
        u.units = s.units ∧ u.sceneTime = s.sceneTime ∧ u.clips = s.clips ∧ u.clipMem = s.clipMem)

/-- CUE_CROSSING of a record that holds a slot counts and pulses its cue line until 100 ticks after the crossing, a pulse in
progress being only made longer; otherwise it is dropped. CUE_PULSE_END returns a line to IDLE once the count has reached the
end time. The line and the time are those that the report carries from when the sample was played: the model's inference of
notes/assumptions/21.md. -/
def Obligations.ACrossingPulsesItsLine : Prop :=
  ∀ (s : State) (h : EmitterHandle) (q : CueLine) (time : Int),
    (.crossing h q time ∈ s.inFlight → ∀ r, s.recordAt h = some r → r.state.holdsSlot = true →
      ∃ u : State, exec (.cueCrossing h q time) s = .next u ∧
        u.recordAt h = some { r with cueCount := if r.cueCount < 4294967295 then r.cueCount + 1 else r.cueCount } ∧
        s.otherEntries u h.slot ∧ (s.cues.get q = .idle → u.cues.get q = .pulsing (time + 100)) ∧
        (∀ e, s.cues.get q = .pulsing e → u.cues.get q = .pulsing (if e < time + 100 then time + 100 else e)) ∧
        (∀ k, k ≠ q → u.cues.get k = s.cues.get k) ∧
        u = { s with entries := u.entries, cues := u.cues, inFlight := s.inFlight.erase (.crossing h q time) }) ∧
    (.crossing h q time ∈ s.inFlight → (∀ r, s.recordAt h = some r → r.state.holdsSlot = false) →
      exec (.cueCrossing h q time) s = .next { s with inFlight := s.inFlight.erase (.crossing h q time) }) ∧
    (∀ e, s.cues.get q = .pulsing e → e ≤ s.now → ∃ u : State, exec (.cuePulseEnd q) s = .next u ∧ u.cues.get q = .idle ∧
      (∀ k, k ≠ q → u.cues.get k = s.cues.get k) ∧ u = { s with cues := u.cues }) ∧
    (∀ e, s.cues.get q = .pulsing e → s.now < e → exec (.cuePulseEnd q) s = .next s)

/-! ## Stream slots and playout -/

/-- GRANT: the head of the queue is of the highest effective priority and among those the first to have joined. When a slot is
free and the head's clip rate fits the remaining rate, it leaves the queue, takes the lowest-numbered free slot with that rate,
and is PRIMING from its start offset with an empty window, its first run issued within the grant (its length is free within R77:
notes/assumptions/6.md); every entry that joined before it and stays is passed over. -/
def Obligations.AGrantTakesTheHead : Prop :=
  ∀ (s : State) (h : EmitterHandle) (before after : List EmitterHandle) (n : SlotNo) (r : Record) (c : Clip),
    s.grantQueue = before ++ h :: after → (∀ k ∈ before, s.queuePriority k < s.queuePriority h) →
    (∀ k ∈ after, s.queuePriority k ≤ s.queuePriority h) → s.grantQueue.Nodup → s.recordAt h = some r →
    s.clipAt r.clip = some c → (s.slots.get n).owner = none → (∀ m, m < n → (s.slots.get m).owner ≠ none) →
    (c.rate ≤ s.rateLeft → ∃ u : State, exec .grant s = .next u ∧ u.grantQueue = before ++ after ∧
      u.recordAt h = some { r with state := .priming, primedNoted := false } ∧
      StreamSlot.RunIssued { StreamSlot.free with owner := some h, rate := c.rate, nextPos := r.startOffset } (u.slots.get n)
        s.nextTag u.nextTag h { r with state := .priming, primedNoted := false } c ∧
      (∀ m, m ≠ n → u.slots.get m = s.slots.get m) ∧
      (∀ k q, k ∈ before → s.recordAt k = some q →
        u.recordAt k = some { q with passedOver := if q.passedOver < 8 then q.passedOver + 1 else q.passedOver }) ∧
      (∀ i, i ≠ h.slot → (∀ k ∈ before, k.slot ≠ i) → u.entries.get i = s.entries.get i) ∧
      u = { s with entries := u.entries, grantQueue := u.grantQueue, slots := u.slots, nextTag := u.nextTag }) ∧
    (s.rateLeft < c.rate → exec .grant s = .next s)

/-- RUN_READ_DONE: a read that succeeds appends the run's samples, as clip memory holds them, to the window, and reading goes on
past it; an uncorrectable read leaves the slot STALLED with its failed run, or, in PRIMING, issues the demand read.
DEMAND_READ_DONE: a demand read that succeeds enters the window, the slot is RUNNING again, and a recovered report is sent; one
that fails again sends a failure report. Each read sends one counting message, and changes no entry. With the samples of a read
that succeeds, priming may complete: the window is full, or holds the rest of a ONCE clip; the primed mark is set, and the
primed report sent once. The next run is then issued as soon as it has room (its length is free within R77:
notes/assumptions/6.md). A read whose run a change has discarded stays in flight until it completes; it is counted, its samples
and its failure are disregarded, and only then may the slot issue its next run. The read of a released slot is counted when it
completes, and nothing else; one that is not in flight is no event. -/
def Obligations.ClipReadsFillTheWindow : Prop :=
  (∀ (s : State) (n : SlotNo) (f : Fetch) (h : EmitterHandle) (r : Record) (c : Clip) (o : ReadOutcome) (e : Instr)
     (x y : StreamSlot) (count recovered : List Message),
     s.slots.get n = x → x.fetch = some f → x.owner = some h → s.recordAt h = some r → s.clipAt r.clip = some c →
     f.demand = false ∧ e = .runReadDone n f.tag o ∧ recovered = [] ∨
       f.demand = true ∧ e = .demandReadDone n f.tag o ∧ recovered = [.recovered h] →
     count = [.readCount f.clip o] →
     y = { x with
       fetch := none, failed := none, fetchState := .running
       window := x.window ++ (List.range f.run.len).map fun k => ⟨f.run.start + k, s.clipSample c (f.run.start + k)⟩
       nextPos := r.loop.after c.length (f.run.start + f.run.len - 1) } →
     ∃ u : State, exec e s = .next u ∧ (∀ m, m ≠ n → u.slots.get m = s.slots.get m) ∧
       u = { s with slots := u.slots, inFlight := u.inFlight, nextTag := u.nextTag } ∧
       (f.discarded = true → u.inFlight = s.inFlight ++ count ∧
         StreamSlot.RunIssued { x with fetch := none } (u.slots.get n) s.nextTag u.nextTag h r c) ∧
       (f.discarded = false → o ≠ .uncorrectable → u.inFlight = s.inFlight ++ count ++ recovered ++ y.primedReport h r c ∧
         (y.marked r c).RunIssued (u.slots.get n) s.nextTag u.nextTag h r c) ∧
       (f.discarded = false → o = .uncorrectable → f.demand = false → u.inFlight = s.inFlight ++ count ∧
         (r.state ≠ .priming → u.nextTag = s.nextTag ∧
           u.slots.get n = { x with fetch := none, fetchState := .stalled, failed := some f.run }) ∧
         (r.state = .priming → u.nextTag = s.nextTag + 1 ∧ u.slots.get n = { x with
           fetch := some ⟨s.nextTag, h, r.clip, f.run, true, false⟩, fetchState := .demand, failed := some f.run })) ∧
       (f.discarded = false → o = .uncorrectable → f.demand = true →
         u.inFlight = s.inFlight ++ count ++ [.failure h] ∧ u.nextTag = s.nextTag ∧ u.slots.get n = { x with fetch := none })) ∧
  (∀ (s : State) (n : SlotNo) (tag : Nat) (demand : Bool) (o : ReadOutcome) (e : Instr),
     demand = false ∧ e = .runReadDone n tag o ∨ demand = true ∧ e = .demandReadDone n tag o →
     (∀ f, (s.slots.get n).fetch = some f → f.tag ≠ tag ∨ f.demand ≠ demand) →
     (∀ f before after, s.strayReads = before ++ f :: after → f.tag = tag → f.demand = demand →
       (∀ g ∈ before, g.tag ≠ tag ∨ g.demand ≠ demand) → exec e s = .next { s with
         strayReads := before ++ after, inFlight := s.inFlight ++ [.readCount f.clip o] }) ∧
     ((∀ f ∈ s.strayReads, f.tag ≠ tag ∨ f.demand ≠ demand) → exec e s = .next s))

/-- SLOT_OUTPUT_SAMPLE of a sounding entry whose slot holds the sample at the play position: the sample leaves the window and
enters the echo line; each port of the set keeps, for the member, the sample that each path's delay selects; the accumulators
and the advance count rise; the play position moves on or wraps to the loop start; a cue sample is reported as crossed; and the
next run is issued as soon as it has room (its length is free within R77: notes/assumptions/6.md). A record that a change to LOOP
has left at the clip length first goes to its loop start, with the pass count raised (Record.Wraps). SLOT_OUTPUT_SAMPLE without a
clip sample plays a zero, and the play position stays: in the ONCE tail, whose end of clip is reported once when the advance
count has passed the tail mark by more than the longest delay; and in a gap, where each zero raises the gap samples and an
emptied STALLED slot issues the demand read, of its failed run. Each such zero enters the echo line, the ports keep the samples
that the delays then select, and the accumulators rise, as with a clip sample. The model's inferences here: a crossing report
carries its line and time (notes/assumptions/21.md), a hand-over carries sample and accumulator (notes/assumptions/24.md), and
the end is reported once, against the present path list (notes/assumptions/35.md); and its choices, that such zeros go on from a
demand read that has failed to the taking of its failure report (notes/assumptions/38.md), and that a sample is handed over with
the accumulator before its advance (notes/assumptions/45.md). -/
def Obligations.AnOutputSampleIsPlayed : Prop :=
  (∀ (s : State) (n : SlotNo) (h : EmitterHandle) (old r : Record) (c : Clip) (w : WindowSample) (ws : List WindowSample),
     (s.slots.get n).owner = some h → s.recordAt h = some old → s.clipAt old.clip = some c → old.state.sounds = true →
     (s.slots.get n).tail = none → (s.slots.get n).window = w :: ws → old.Wraps r c →
     ∃ u : State, ∃ k tail, exec (.slotOutputSample n) s = .next u ∧ u.recordAt h = some k ∧ s.otherEntries u h.slot ∧
       StreamSlot.RunIssued { s.slots.get n with
         window := ws, echo := (w.sample :: (s.slots.get n).echo).take 8192, tail := tail, heldTail := none }
         (u.slots.get n) s.nextTag u.nextTag h r c ∧
       (∀ m, m ≠ n → u.slots.get m = s.slots.get m) ∧
       k = { r with
         advance := r.advance + 1, paths := k.paths, playPosition := k.playPosition, passCount := k.passCount } ∧
       k.paths = r.paths.map (fun p => { p with acc := p.acc + accStep r.carrier p.vals.doppler c.rate }) ∧
       (r.loop = .once → k.playPosition = r.playPosition + 1 ∧ k.passCount = r.passCount) ∧
       (r.loop = .once → r.playPosition + 1 = c.length → tail = some r.advance) ∧
       (r.loop ≠ .once ∨ r.playPosition + 1 ≠ c.length → tail = none) ∧
       (∀ a b, r.loop = .loop a b → (r.playPosition + 1 = b ∨ r.playPosition + 1 = c.length) →
         k.playPosition = a ∧ k.passCount = if r.passCount < 4294967295 then r.passCount + 1 else r.passCount) ∧
       (∀ a b, r.loop = .loop a b → r.playPosition + 1 ≠ b → r.playPosition + 1 ≠ c.length →
         k.playPosition = r.playPosition + 1 ∧ k.passCount = r.passCount) ∧
       (∀ q, r.cue = some q → q.sample = r.playPosition → u.inFlight = s.inFlight ++ [.crossing h q.line s.now]) ∧
       ((∀ q, r.cue = some q → q.sample ≠ r.playPosition) → u.inFlight = s.inFlight) ∧
       (∀ p, r.ports.getLsbD p.val = true → u.ports.get p = { s.ports.get p with
         members := (s.ports.get p).members.map fun m => if m.handle = h then { m with handOver := r.paths.map fun x =>
           ⟨((w.sample :: (s.slots.get n).echo).take 8192).getD x.vals.delay ⟨0, 0⟩, x.acc⟩ } else m }) ∧
       (∀ p, r.ports.getLsbD p.val = false → u.ports.get p = s.ports.get p) ∧
       u = { s with
         entries := u.entries, slots := u.slots, ports := u.ports, inFlight := u.inFlight, nextTag := u.nextTag }) ∧
  (∀ (s : State) (n : SlotNo) (h : EmitterHandle) (r : Record) (c : Clip),
     (s.slots.get n).owner = some h → s.clipAt r.clip = some c → r.state.sounds = true →
     ∀ echo turned, echo = Sample.zero :: (s.slots.get n).echo →
     turned = r.paths.map (fun p => { p with acc := p.acc + accStep r.carrier p.vals.doppler c.rate }) →
     (∀ t, s.recordAt h = some r → (s.slots.get n).tail = some t → r.loop = .once →
       ∃ u : State, exec (.slotOutputSample n) s = .next u ∧
       u.recordAt h = some { r with advance := r.advance + 1, paths := turned } ∧ s.otherEntries u h.slot ∧
       u.slots.get n = { s.slots.get n with echo := echo.take 8192, endFound := (u.slots.get n).endFound } ∧
       (∀ m, m ≠ n → u.slots.get m = s.slots.get m) ∧
       (t + r.longestDelay < r.advance → (s.slots.get n).endFound = false →
         u.inFlight = s.inFlight ++ [.endOfClip h] ∧ (u.slots.get n).endFound = true) ∧
       (r.advance ≤ t + r.longestDelay ∨ (s.slots.get n).endFound = true →
         u.inFlight = s.inFlight ∧ (u.slots.get n).endFound = (s.slots.get n).endFound) ∧
       (∀ p, r.ports.getLsbD p.val = true → u.ports.get p = { s.ports.get p with
         members := (s.ports.get p).members.map fun m => if m.handle = h then { m with handOver := r.paths.map fun x =>
           ⟨(echo.take 8192).getD x.vals.delay ⟨0, 0⟩, x.acc⟩ } else m }) ∧
       (∀ p, r.ports.getLsbD p.val = false → u.ports.get p = s.ports.get p) ∧
       u = { s with entries := u.entries, slots := u.slots, ports := u.ports, inFlight := u.inFlight }) ∧
     (∀ run old, s.recordAt h = some old → old.Wraps r c → (s.slots.get n).tail = none → (s.slots.get n).window = [] →
       (s.slots.get n).failed = some run → (s.slots.get n).fetchState ≠ .running →
       ∃ u : State, exec (.slotOutputSample n) s = .next u ∧
         u.recordAt h = some { r with
           advance := r.advance + 1, paths := turned
           gapSamples := if r.gapSamples < 4294967295 then r.gapSamples + 1 else r.gapSamples } ∧ s.otherEntries u h.slot ∧
         ((s.slots.get n).fetchState = .stalled → u.nextTag = s.nextTag + 1 ∧ u.slots.get n = { s.slots.get n with
           echo := echo.take 8192, fetchState := .demand, fetch := some ⟨s.nextTag, h, r.clip, run, true, false⟩ }) ∧
         ((s.slots.get n).fetchState = .demand → u.nextTag = s.nextTag ∧
           u.slots.get n = { s.slots.get n with echo := echo.take 8192 }) ∧
         (∀ m, m ≠ n → u.slots.get m = s.slots.get m) ∧
         (∀ p, r.ports.getLsbD p.val = true → u.ports.get p = { s.ports.get p with
           members := (s.ports.get p).members.map fun m => if m.handle = h then { m with handOver := r.paths.map fun x =>
             ⟨(echo.take 8192).getD x.vals.delay ⟨0, 0⟩, x.acc⟩ } else m }) ∧
         (∀ p, r.ports.getLsbD p.val = false → u.ports.get p = s.ports.get p) ∧
         u = { s with entries := u.entries, slots := u.slots, ports := u.ports, nextTag := u.nextTag }))

/-- RECOVERED_REPORT of an entry that holds a slot makes its condition RECOVERED and raises RECOVERED; FAILURE_REPORT takes it
to FAULTED and MUTED with FAULT, its staged change discarded and its slot released, its play position, gap samples and port
memberships kept. In any other state both are dropped. -/
def Obligations.ReadReportsMarkTheRecord : Prop :=
  ∀ (s : State) (h : EmitterHandle),
    (∀ r, .recovered h ∈ s.inFlight → s.recordAt h = some r → r.state.holdsSlot = true →
      ∃ u : State, exec (.recoveredReport h) s = .next u ∧ u.recordAt h = some { r with
          condition := .recovered, attention := true, causes := { r.causes with recovered := true } } ∧
        s.otherEntries u h.slot ∧
        (u.units.get r.lane).summary = (s.units.get r.lane).summary ||| Cause.emitterAttention.bit ∧
        u = { s with
          entries := u.entries, units := u.units, sent := u.sent, inFlight := s.inFlight.erase (.recovered h) }) ∧
    (∀ r, .failure h ∈ s.inFlight → s.recordAt h = some r → r.state.holdsSlot = true →
      ∃ u : State, exec (.failureReport h) s = .next u ∧ u.recordAt h = some { r with
          state := .faulted, condition := .muted, staged := none, ramp := none, attention := true,
          causes := { r.causes with fault := true } } ∧
        s.otherEntries u h.slot ∧ (s.slotOf h = none → u.slots = s.slots ∧ u.strayReads = s.strayReads) ∧
        (∀ n, s.slotOf h = some n → u.slots.get n = .free ∧ (∀ m, m ≠ n → u.slots.get m = s.slots.get m) ∧
          u.strayReads = s.strayReads ++ (s.slots.get n).fetch.toList) ∧
        (∀ x ∈ u.timer, x.kind ≠ .startTime h) ∧ (∀ p, (u.ports.get p).members = (s.ports.get p).members) ∧
        (u.units.get r.lane).summary = (s.units.get r.lane).summary ||| Cause.emitterAttention.bit ∧
        u = { s with
          entries := u.entries, ports := u.ports, timer := u.timer, triggers := u.triggers, slots := u.slots,
          strayReads := u.strayReads, units := u.units, sent := u.sent, inFlight := s.inFlight.erase (.failure h) }) ∧
    ((∀ r, s.recordAt h = some r → r.state.holdsSlot = false) →
      (.recovered h ∈ s.inFlight →
        exec (.recoveredReport h) s = .next { s with inFlight := s.inFlight.erase (.recovered h) }) ∧
      (.failure h ∈ s.inFlight →
        exec (.failureReport h) s = .next { s with inFlight := s.inFlight.erase (.failure h) }))

/-! ## The clip catalog and the load engine -/

/-- DEFINE_CLIP with its ranges: when no clip covers a page of the extent, the lowest-numbered EMPTY slot takes its next
generation and holds a DEFINED clip of the acting lane with the request's fields, and the slot's drained note is gone; a covered
page is answered with OVERLAP and the lowest such page. -/
def Obligations.DefineClipTakesAnEmptySlot : Prop :=
  ∀ (s : State) (l : Lane) (q : DefineClipReq) (i : ClipNo), s.Handed l (.defineClip q) anyFlag →
    1 ≤ q.pageCount → q.pageCount ≤ 16384 → q.basePage + q.pageCount ≤ 65536 → 1 ≤ q.length.toNat →
    q.length.toNat ≤ q.pageCount * 16384 → 1000000 ≤ q.rate.toNat → q.rate.toNat ≤ 80000000 →
    (s.clips.get i).clip = none → (∀ j, j < i → (s.clips.get j).clip.isSome = true) →
    ((∀ j c, (s.clips.get j).clip = some c →
        c.basePage + c.pageCount ≤ q.basePage ∨ q.basePage + q.pageCount ≤ c.basePage) →
      ∃ u : State, ∃ g c, exec (.defineClip l q) s = .next (u.answer l ⟨.done, .clip ⟨i, g⟩⟩) ∧
        g = (if (s.clips.get i).unused then (s.clips.get i).gen else nextGen (s.clips.get i).gen) ∧
        u.clips.get i = ⟨g, false, some c, none⟩ ∧ c.lane = l ∧ c.state = .defined ∧ c.basePage = q.basePage ∧
        c.pageCount = q.pageCount ∧ c.length = q.length.toNat ∧ c.rate = q.rate.toNat ∧ c.expectedCrc = q.crc ∧
        c.computedCrc = none ∧ c.refs = 0 ∧ c.corrected = 0 ∧ c.uncorrectable = 0 ∧ c.attention = false ∧ c.causes = {} ∧
        s.otherClips u i ∧ u = { s with clips := u.clips }) ∧
    (∀ n, q.basePage ≤ n → n < q.basePage + q.pageCount →
      (∃ j c, (s.clips.get j).clip = some c ∧ c.basePage ≤ n ∧ n < c.basePage + c.pageCount) →
      (∀ m j c, q.basePage ≤ m → m < n → (s.clips.get j).clip = some c →
        ¬(c.basePage ≤ m ∧ m < c.basePage + c.pageCount)) →
      exec (.defineClip l q) s = .next (s.answer l ⟨.overlap, .page n⟩))

/-- LOAD_CLIP of a clip that is DEFINED, or READY without a reference: the clip is LOADING with its read counts 0 and no
computed CRC, the unit is HELD, and the load waits in the queue or, where the engine is IDLE and nothing waits, becomes its
current load, whose first host read is issued at the source address (that it asks for every byte of the load is the model's
choice of notes/assumptions/44.md). A referenced clip is answered with IN_USE, a LOADING or DRAINING one with WRONG_STATE. -/
def Obligations.LoadClipHoldsTheUnit : Prop :=
  ∀ (s : State) (l : Lane) (q : LoadClipReq) (h : ClipHandle) (c : Clip), s.Handed l (.loadClip q) anyFlag →
    h = q.clip.clip → s.clipAt h = some c → (l = 0 ∨ l = c.lane) → q.source.toNat % 4 = 0 →
    q.source.toNat + 4 * c.length ≤ 2 ^ 64 → windowAllows (s.units.get l).window q.source.toNat (4 * c.length) = true →
    (c.state = .defined ∨ (c.state = .ready ∧ c.refs = 0) → ∃ u : State, exec (.loadClip l q) s = .next u ∧
      u.clipAt h = some { c with state := .loading, corrected := 0, uncorrectable := 0, computedCrc := none } ∧
      s.otherClips u h.slot ∧ u.units.get l = { s.units.get l with state := .active .held } ∧ s.otherUnits u l ∧
      (s.copy = none → s.loadQueue = [] →
        u.copy = some ⟨⟨h, l, q.source, q.check⟩, 0, BitVec.allOnes 32, s.nextTag⟩ ∧ u.loadQueue = [] ∧
        (0 < c.length → u.sent = s.sent ++ [.hostRead s.nextTag q.source (4 * c.length)])) ∧
      (∀ x, s.copy = some x → u.copy = some x ∧ u.loadQueue = s.loadQueue ++ [⟨h, l, q.source, q.check⟩] ∧ u.sent = s.sent) ∧
      u = { s with
        clips := u.clips, units := u.units, loadQueue := u.loadQueue, copy := u.copy, nextTag := u.nextTag
        sent := u.sent }) ∧
    (c.state = .ready → 0 < c.refs → exec (.loadClip l q) s = .next (s.answer l ⟨.inUse, .empty⟩)) ∧
    (c.state = .loading ∨ c.state = .draining → exec (.loadClip l q) s = .next (s.answer l ⟨.wrongState, .empty⟩))

/-- COPY_HOST_READ_DONE of the current load: the bytes of whole samples are written from the next position of the clip's extent,
the count and the CRC move on, every other byte of clip memory stays, and while samples are left the host read that goes on from
the next one is issued, so that the reads go in ascending address order from the source address (how many samples one read
brings is left open: notes/assumptions/44.md). A completion of another number changes nothing. LOAD_COPY_END: a failed host read
leaves the clip DEFINED and sends LINK_READ_ERROR with the samples copied; a copy of every sample leaves it READY with its
computed CRC, or, where CHECK was asked and the CRC is another than the expected one, DEFINED with CRC_MISMATCH. The engine
takes the next load of the queue. Before the last sample nothing ends. That a failure reported after the last sample ends the
load all the same is the model's choice of notes/assumptions/49.md. -/
def Obligations.ACopyFillsTheClip : Prop :=
  (∀ (s : State) (x : Copy) (c : Clip) (bytes : List Byte), s.copy = some x → s.clipAt x.load.clip = some c →
     (bytes.length % 4 = 0 → x.copied + bytes.length / 4 ≤ c.length →
       ∃ u : State, ∃ y, exec (.copyHostReadDone x.tag bytes) s = .next u ∧ u.copy = some y ∧
         y = { x with copied := x.copied + bytes.length / 4, crc := bytes.foldl crcByte x.crc } ∧
         (∀ k b, bytes[k]? = some b → u.clipByte (c.basePage * 65536 + 4 * x.copied + k) = b) ∧
         (∀ a, a < c.basePage * 65536 + 4 * x.copied ∨ c.basePage * 65536 + 4 * x.copied + bytes.length ≤ a →
           u.clipByte a = s.clipByte a) ∧
         (x.copied + bytes.length / 4 < c.length → u.sent = s.sent ++
           [.hostRead x.tag (x.load.source + BitVec.ofNat 64 (4 * (x.copied + bytes.length / 4)))
             (4 * (c.length - (x.copied + bytes.length / 4)))]) ∧
         (x.copied + bytes.length / 4 = c.length → u.sent = s.sent) ∧
         u = { s with clipMem := u.clipMem, copy := u.copy, sent := u.sent }) ∧
     (∀ tag, tag ≠ x.tag → exec (.copyHostReadDone tag bytes) s = .next s)) ∧
  (∀ (s : State) (x : Copy) (c : Clip) (crc : BitVec 32), s.copy = some x → s.clipAt x.load.clip = some c →
     c.state = .loading → crc = ~~~(reverseBits x.crc) →
     (∀ failed, failed = true ∨ x.copied = c.length → ∃ u : State, exec (.loadCopyEnd x.tag failed) s = .next u ∧
       (failed = true → u.clipAt x.load.clip = some { c with state := .defined, computedCrc := none } ∧
         u.inFlight = s.inFlight ++ [.heldDone x.load.lane ⟨.linkReadError, .copied x.copied⟩ x.copied]) ∧
       (failed = false → x.load.check = false ∨ crc = c.expectedCrc →
         u.clipAt x.load.clip = some { c with state := .ready, computedCrc := some crc } ∧
         u.inFlight = s.inFlight ++ [.heldDone x.load.lane ⟨.done, .crc crc⟩ x.copied]) ∧
       (failed = false → x.load.check = true → crc ≠ c.expectedCrc →
         u.clipAt x.load.clip = some { c with state := .defined, computedCrc := some crc } ∧
         u.inFlight = s.inFlight ++ [.heldDone x.load.lane ⟨.crcMismatch, .crcs crc c.expectedCrc⟩ x.copied]) ∧
       s.otherClips u x.load.clip.slot ∧ (s.loadQueue = [] → u.copy = none ∧ u.loadQueue = [] ∧ u.sent = s.sent) ∧
       (∀ y ys, s.loadQueue = y :: ys → u.copy = some ⟨y, 0, BitVec.allOnes 32, s.nextTag⟩ ∧ u.loadQueue = ys ∧
         ∀ d, s.clipAt y.clip = some d → 0 < d.length →
           u.sent = s.sent ++ [.hostRead s.nextTag y.source (4 * d.length)]) ∧
       u = { s with
         clips := u.clips, inFlight := u.inFlight, copy := u.copy, loadQueue := u.loadQueue, nextTag := u.nextTag
         sent := u.sent }) ∧
     (x.copied ≠ c.length → exec (.loadCopyEnd x.tag false) s = .next s))

/-- RETIRE_CLIP: a DEFINED clip and a READY one without a reference leave their slot EMPTY at once; so does a LOADING one, whose
load is abandoned and its block completed with ABORTED, whether the engine is copying it (with the samples copied) or it waits
in the queue while the engine copies another (with none); a referenced one is DRAINING. An engine whose copy is abandoned takes
the next load of the queue and issues its first host read (that it asks for every byte of the load is the model's choice of
notes/assumptions/44.md); the other loads keep their places, and nothing else on its way changes. -/
def Obligations.RetireClipActsByState : Prop :=
  ∀ (s : State) (l : Lane) (raw : RawHandle) (h : ClipHandle) (c : Clip), s.Handed l (.retireClip raw) anyFlag →
    h = raw.clip → s.clipAt h = some c → (l = 0 ∨ l = c.lane) →
    (c.state = .defined ∨ (c.state = .ready ∧ c.refs = 0) →
      ∃ u : State, exec (.retireClip l raw) s = .next (u.answer l ⟨.done, .clipRetired .immediate 0⟩) ∧
        u.clips.get h.slot = { s.clips.get h.slot with clip := none, note := none } ∧ u.clipAt h = none ∧
        s.otherClips u h.slot ∧ u = { s with clips := u.clips }) ∧
    (c.state = .loading → ∃ u : State, exec (.retireClip l raw) s = .next (u.answer l ⟨.done, .clipRetired .immediate 0⟩) ∧
      u.clips.get h.slot = { s.clips.get h.slot with clip := none, note := none } ∧ s.otherClips u h.slot ∧
      (∀ y n rest, rest = s.loadQueue.filter (fun z => z.clip != h) →
        ((∃ x, s.copy = some x ∧ x.load = y ∧ x.copied = n) ∧ y.clip = h ∨
          s.copy = none ∧ s.loadQueue.find? (fun z => z.clip == h) = some y ∧ n = 0) →
        u.inFlight = s.inFlight ++ [.heldDone y.lane ⟨.aborted, .copied n⟩ n] ∧
        (rest = [] → u.copy = none ∧ u.loadQueue = [] ∧ u.nextTag = s.nextTag ∧ u.sent = s.sent) ∧
        ∀ z zs, rest = z :: zs → u.copy = some ⟨z, 0, BitVec.allOnes 32, s.nextTag⟩ ∧ u.loadQueue = zs ∧
          u.nextTag = s.nextTag + 1 ∧ ∀ d, s.clipAt z.clip = some d → 0 < d.length →
            u.sent = s.sent ++ [.hostRead s.nextTag z.source (4 * d.length)]) ∧
      (∀ x y, s.copy = some x → x.load.clip ≠ h → s.loadQueue.find? (fun z => z.clip == h) = some y →
        u.inFlight = s.inFlight ++ [.heldDone y.lane ⟨.aborted, .copied 0⟩ 0] ∧ u.copy = s.copy ∧
        u.loadQueue = s.loadQueue.filter (fun z => z.clip != h) ∧ u.nextTag = s.nextTag ∧ u.sent = s.sent) ∧
      (∀ x ∈ u.loadQueue, x.clip ≠ h) ∧ (∀ x, u.copy = some x → x.load.clip ≠ h) ∧
      u = { s with
        clips := u.clips, inFlight := u.inFlight, copy := u.copy, loadQueue := u.loadQueue, nextTag := u.nextTag
        sent := u.sent }) ∧
    (c.state = .ready → 0 < c.refs →
      ∃ u : State, exec (.retireClip l raw) s = .next (u.answer l ⟨.done, .clipRetired .deferred c.refs⟩) ∧
        u.clipAt h = some { c with state := .draining } ∧ s.otherClips u h.slot ∧ u = { s with clips := u.clips }) ∧
    (c.state = .draining → exec (.retireClip l raw) s = .next (s.answer l ⟨.done, .clipRetired .deferred c.refs⟩))

/-- READ_COUNT_MESSAGE counts a corrected or an uncorrectable read at an accepted clip, an uncorrectable one with READ_ERROR and
CLIP_ATTENTION, and is dropped for a stale handle. CLIP_REFERENCE_RELEASE, while the count exceeds the entries that hold the clip,
takes one reference from it; the last one of a DRAINING clip leaves the slot EMPTY with a drained note under the old handle and
CLIP_ATTENTION. Where no entry has left without its release there is none to take, and nothing changes: the model's choice of
notes/assumptions/2.md and 4.md. -/
def Obligations.ClipCountsRiseAndFall : Prop :=
  ∀ (s : State) (h : ClipHandle),
    (∀ o w, .readCount h o ∈ s.inFlight → w = { s with inFlight := s.inFlight.erase (.readCount h o) } →
      (s.clipAt h = none ∨ o = .clean → exec (.readCountMessage h o) s = .next w) ∧
      ∀ c, s.clipAt h = some c → o ≠ .clean → ∃ u : State, exec (.readCountMessage h o) s = .next u ∧ s.otherClips u h.slot ∧
        (o = .corrected → u.clipAt h = some { c with
            corrected := if c.corrected < 4294967295 then c.corrected + 1 else c.corrected } ∧
          u = { w with clips := u.clips }) ∧
        (o = .uncorrectable → u.clipAt h = some { c with
            uncorrectable := if c.uncorrectable < 4294967295 then c.uncorrectable + 1 else c.uncorrectable
            attention := true, causes := { c.causes with readError := true } } ∧
          (u.units.get c.lane).summary = (s.units.get c.lane).summary ||| Cause.clipAttention.bit ∧
          s.otherUnits u c.lane ∧ u = { w with clips := u.clips, units := u.units, sent := u.sent })) ∧
    (s.clipAt h = none → exec (.clipReferenceRelease h) s = .next s) ∧
    (∀ c, s.clipAt h = some c → c.refs ≤ s.holders h → exec (.clipReferenceRelease h) s = .next s) ∧
    (∀ c, s.clipAt h = some c → s.holders h < c.refs →
      ∃ u : State, exec (.clipReferenceRelease h) s = .next u ∧ s.otherClips u h.slot ∧
      (1 < c.refs ∨ c.state ≠ .draining →
        u.clipAt h = some { c with refs := c.refs - 1 } ∧ u = { s with clips := u.clips }) ∧
      (c.refs ≤ 1 → c.state = .draining →
        u.clips.get h.slot = { s.clips.get h.slot with
          clip := none
          note := some ⟨h, c.lane, { c.causes with drained := true }, c.corrected, c.uncorrectable⟩ } ∧
        (u.units.get c.lane).summary = (s.units.get c.lane).summary ||| Cause.clipAttention.bit ∧
        s.otherUnits u c.lane ∧ u = { s with clips := u.clips, units := u.units, sent := u.sent }))

/-! ## Receiver ports -/

/-- The messages to a port controller. A join adds the handle at the tail of the member list, once; a weight message gives the
member its new weight in its place; both take the handle's reservation away; a leave takes the member out; a claim and a release
write the handle's reservation. Nothing else of the port, and no other port, changes. That a join of a handle which is already a
member leaves its weight and place is the model's choice of notes/assumptions/58.md. -/
def Obligations.PortMessagesKeepTheAccounts : Prop :=
  ∀ (s : State) (p : Port) (h : EmitterHandle) (weight increase : Nat) (join : Bool) (c : Instr) (r : PortRec),
    (c = .portJoin p h weight ∧ r = { s.ports.get p with
        members := if ∃ m ∈ (s.ports.get p).members, m.handle = h then (s.ports.get p).members
          else (s.ports.get p).members ++ [⟨h, weight, []⟩]
        reservations := (s.ports.get p).reservations.filter fun x => x.handle != h }) ∨
    (c = .portWeight p h weight ∧ r = { s.ports.get p with
        members := (s.ports.get p).members.map fun m => if m.handle = h then { m with weight := weight } else m
        reservations := (s.ports.get p).reservations.filter fun x => x.handle != h }) ∨
    (c = .portLeave p h ∧ r = { s.ports.get p with
        members := (s.ports.get p).members.filter fun m => m.handle != h }) ∨
    (c = .reservationClaim p h join increase ∧ r = { s.ports.get p with
        reservations := ((s.ports.get p).reservations.filter fun x => x.handle != h) ++ [⟨h, join, increase⟩] }) ∨
    (c = .reservationRelease p h ∧ r = { s.ports.get p with
        reservations := (s.ports.get p).reservations.filter fun x => x.handle != h }) →
    ∃ u : State, exec c s = .next u ∧ u.ports.get p = r ∧ s.otherPorts u p ∧ u = { s with ports := u.ports }

/-- PORT_OUTPUT_SAMPLE: a zero in HEAD_OFF, RETUNING and QUIET; the tone at its phase in TONE; in SCENE the sum of the members,
scaled by 1,024 over the budget and held in the head's range. A member whose emitter does not sound adds zero; one whose emitter
is ON_AIR or FADING adds the contributions of its paths, each with the entry of the hand-over in the path's place. A path's
contribution is its sample times its weight and its fade gain, for a FADING record times the ramp gain, turned by its phase and
accumulator; the ramp gain is 0 at and after the ramp end, and before it 1,024 times the ticks left over the length of the ramp.
The tone phase moves on while the tone is enabled. The model's own parts of this: weights and gains as they stand at the port's
sample (notes/assumptions/24.md), the phase moved on after the sample (36.md), the series for cosine and sine (20.md), the
formula of the ramp gain also at the first sample after the RETIRE (39.md). -/
def Obligations.AnOutputSampleGoesToTheHead : Prop :=
  ∀ (s : State) (p : Port) (r : PortRec) (z : IqValue), r = s.ports.get p →
    z = (r.members.map s.memberSum).foldl addIq ⟨0, 0⟩ →
    ∃ u : State, ∃ y, exec (.portOutputSample p) s = .next u ∧
      u.ports.get p = { r with
        pin := y, tonePhase := if r.output.tone then (r.tonePhase + 32 / r.output.divider) % 32 else r.tonePhase } ∧
      (r.head ≠ .ready ∨ r.exchange.isSome = true ∨ (r.output.tone = false ∧ r.output.scene = false) → y = ⟨0, 0⟩) ∧
      (r.head = .ready → r.exchange = none → r.output.tone = true →
        y = onCircle 32767 (BitVec.ofNat 32 (r.tonePhase * 134217728))) ∧
      (r.head = .ready → r.exchange = none → r.output.tone = false → r.output.scene = true →
        y = ⟨max (-32768) (min 32767 ((z.i * 1024).tdiv r.budget)), max (-32768) (min 32767 ((z.q * 1024).tdiv r.budget))⟩) ∧
      (∀ m, (∀ e, s.recordAt m.handle = some e → e.state ≠ .onAir ∧ e.state ≠ .fading) → s.memberSum m = ⟨0, 0⟩) ∧
      (∀ m e, s.recordAt m.handle = some e → e.state = .onAir ∨ e.state = .fading →
        s.memberSum m = (List.zipWith (fun a x => s.contribution e a x) e.paths m.handOver).foldl addIq ⟨0, 0⟩) ∧
      (∀ e a x, e.state = .onAir → s.contribution e a x =
        turnIq (scaleIq (scaleIq ⟨x.sample.i.toInt, x.sample.q.toInt⟩ a.vals.weight) (s.pathGain a))
          (phaseAngle a.vals.phase + x.acc)) ∧
      (∀ e a x m g, e.state = .fading → e.ramp = some m →
        g = (if m.stop ≤ s.now then 0 else 1024 * (m.stop - s.now) / m.length) → s.contribution e a x =
        turnIq (scaleIq (scaleIq (scaleIq ⟨x.sample.i.toInt, x.sample.q.toInt⟩ a.vals.weight) (s.pathGain a)) g)
          (phaseAngle a.vals.phase + x.acc)) ∧
      s.otherPorts u p ∧ u = { s with ports := u.ports }

/-- SET_OUTPUT keeps the setting as the port's pending output and names the frame boundary at which it is taken, for which one
expiry stands; OUTPUT_CHANGE_EXPIRY makes the pending output the port's output, with the tone phase 0 where the tone becomes
enabled. That an expiry raised and not yet taken counts as standing is the model's inference of notes/assumptions/15.md, and
that the boundary then named is the latest one is its inference of notes/assumptions/36.md. -/
def Obligations.AnOutputSettingWaitsForItsFrame : Prop :=
  ∀ (s : State) (p : Port),
    (∀ (l : Lane) (q : SetOutputReq), s.Handed l (.setOutput q) anyFlag → q.port.toNat = p.val →
      (l = 0 ∨ l = (s.ports.get p).owner) → q.divider = 4 ∨ q.divider = 8 ∨ q.divider = 16 ∨ q.divider = 32 →
      ∃ u : State, ∃ b, exec (.setOutput l q) s = .next (u.answer l ⟨.done, .output .pending b⟩) ∧
        u.ports.get p = { s.ports.get p with pendingOutput := some ⟨q.scene, q.tone, q.divider⟩ } ∧ s.otherPorts u p ∧
        (s.outstanding (.outputChange p) = false →
          b = nextBoundary s.now ∧ u.timer = s.timer ++ [⟨.outputChange p, nextBoundary s.now⟩]) ∧
        (s.outstanding (.outputChange p) = true → u.timer = s.timer ∧
          (∀ x, s.timer.find? (fun y => y.kind == .outputChange p) = some x → b = x.due) ∧
          (s.timer.find? (fun y => y.kind == .outputChange p) = none → b = s.now / 10000 * 10000)) ∧
        u = { s with ports := u.ports, timer := u.timer }) ∧
    (.expiry (.outputChange p) ∈ s.inFlight →
      ∃ u : State, exec (.outputChangeExpiry p) s = .next u ∧
        (∀ o, (s.ports.get p).pendingOutput = some o → u.ports.get p = { s.ports.get p with
          output := o, pendingOutput := none
          tonePhase := if o.tone = true ∧ (s.ports.get p).output.tone = false then 0 else (s.ports.get p).tonePhase }) ∧
        ((s.ports.get p).pendingOutput = none → u.ports.get p = s.ports.get p) ∧ s.otherPorts u p ∧
        u = { s with ports := u.ports, inFlight := s.inFlight.erase (.expiry (.outputChange p)) })

/-- CONFIGURE_PORT that is accepted: its clock source, owner and budget are in range and the lane has the rights; a leader
is fitted, another port and no follower, and the port then has no follower; the ports it names were fitted and vacant, and
the heads take the rate. The port takes the owner, clock source and budget of the request, everything else of it and of its
followers being kept; a SET_RATE is sent to it and to each fitted follower under a new tag, with an answer due in 50,000
periods, and the unit is HELD. SET_RATE_ACK with the awaited tag ends one of its exchanges and leaves the head as it is;
HEAD_EXCHANGE_TIMEOUT once the answer is due ends it with the head in FAULT with NO_RESPONSE, detail 0 and PORT_FAULT, and
the port counts as silent. While another exchange of the CONFIGURE_PORT is in flight nothing is completed; the last one
completes it with DONE when every head has answered and otherwise with HEAD_NO_RESPONSE naming the lowest-numbered silent
port, the head states of the ports told with it. PORT_FAULT sets PORT_ATTENTION for the lane that owns the port, and no
other lane's unit changes. That a follower's SET_RATE carries its leader's kind of clock source is the model's presumption
of notes/assumptions/26.md. -/
def Obligations.ConfigureTellsTheHeads : Prop :=
  (∀ (s : State) (l : Lane) (q : ConfigurePortReq) (x : ConfigureFound) (told : List Port),
     s.Handed l (.configurePort q) anyFlag → s.followSound → s.checkConfigure l q = .ok x →
     told = x.port :: (List.finRange 8).filter (fun k =>
       (s.ports.get k).clock == .follow x.port && (s.ports.get k).head != .unfitted) →
     x.port.val = q.port.toNat ∧ x.owner.val = q.owner.toNat ∧ x.budget = q.budget ∧ 256 ≤ x.budget ∧ x.budget ≤ 8192 ∧
     s.ClockTaken x.port q.clock x.clock ∧ (l ≠ 0 → (s.ports.get x.port).owner = l ∧ x.owner = l) ∧
     (∀ p, (s.ports.get p).clock = .follow x.port → (s.ports.get p).exchange = none ∧ (s.ports.get p).members = [] ∧
       (s.ports.get p).reservations = []) ∧
     (∀ p ∈ told, (s.ports.get p).head ≠ .unfitted ∧ (s.ports.get p).exchange = none ∧ (s.ports.get p).members = [] ∧
       (s.ports.get p).reservations = [] ∧ ∀ i, (s.ports.get p).identity = some i → s.clockRate x.clock ≤ i.maxRate) ∧
     ∃ u : State, exec (.configurePort l q) s = .next u ∧
       (∀ p ∈ told, p ≠ x.port → u.ports.get p = { s.ports.get p with
         tag := (s.ports.get p).tag + 1
         exchange := some ⟨.setRate, (s.ports.get p).tag + 1, .configure l x.port, s.refTime + 50000, s.sceneTime, false⟩ }) ∧
       u.ports.get x.port = { s.ports.get x.port with
         owner := x.owner, clock := x.clock, budget := x.budget, job := some ⟨l, told, []⟩
         tag := (s.ports.get x.port).tag + 1
         exchange := some
           ⟨.setRate, (s.ports.get x.port).tag + 1, .configure l x.port, s.refTime + 50000, s.sceneTime, false⟩ } ∧
       (∀ p ∈ told, u.portRate p = s.clockRate x.clock) ∧ (∀ p, p ∉ told → u.ports.get p = s.ports.get p) ∧
       u.sent = s.sent ++ told.map (fun p =>
         .setRate p ((s.ports.get p).tag + 1) (s.clockRate x.clock) (u.runsExternal p)) ∧
       u.units.get l = { s.units.get l with state := .active .held } ∧ s.otherUnits u l ∧
       u = { s with ports := u.ports, units := u.units, sent := u.sent }) ∧
  (∀ (s : State) (p home : Port) (r : PortRec) (x : Exchange) (j : ConfigureJob), r = s.ports.get p → r.exchange = some x →
     x.kind = .setRate → x.purpose = .configure j.lane home → (s.ports.get home).job = some j →
     (s.refTime < x.due → ∃ u : State, exec (.setRateAck p x.tag) s = .next u ∧
       u.ports.get p = { r with exchange := none, job := (u.ports.get p).job } ∧
       (p ≠ home → (u.ports.get p).job = r.job ∧
         u.ports.get home = { s.ports.get home with job := (u.ports.get home).job }) ∧
       (∀ k, k ≠ p → k ≠ home → u.ports.get k = s.ports.get k) ∧
       (s.othersConfiguring j home p → (u.ports.get home).job = some j ∧ u.inFlight = s.inFlight) ∧
       (¬ s.othersConfiguring j home p → (u.ports.get home).job = none ∧
         ∃ a, u.ConfigureEnds j a ∧ u.inFlight = s.inFlight ++ [.heldDone j.lane a 0]) ∧
       u = { s with ports := u.ports, inFlight := u.inFlight }) ∧
     (x.due ≤ s.refTime → s.phase = .ready → ∃ u : State, ∃ i, exec (.headExchangeTimeout p) s = .next u ∧
       i = { j with silent := j.silent ++ [p] } ∧ u.ports.get p = { r with
         exchange := none, head := .fault, detail := some ⟨.noResponse, 0, s.sceneTime⟩
         faultCount := if r.faultCount < 65535 then r.faultCount + 1 else r.faultCount
         attention := true, causes := { r.causes with portFault := true }, job := (u.ports.get p).job } ∧
       (p ≠ home → (u.ports.get p).job = r.job ∧
         u.ports.get home = { s.ports.get home with job := (u.ports.get home).job }) ∧
       (∀ k, k ≠ p → k ≠ home → u.ports.get k = s.ports.get k) ∧
       (s.othersConfiguring j home p → (u.ports.get home).job = some i ∧ u.inFlight = s.inFlight) ∧
       (¬ s.othersConfiguring j home p → (u.ports.get home).job = none ∧
         ∃ a, u.ConfigureEnds i a ∧ u.inFlight = s.inFlight ++ [.heldDone j.lane a 0]) ∧
       s.PortAttentionSet u r.owner ∧
       u = { s with ports := u.ports, units := u.units, sent := u.sent, inFlight := u.inFlight }))

/-- RESTART_PORT begins a PROBE under a new tag, with an answer due in 50,000 periods, and holds the unit; a port with an
exchange in flight is answered with PORT_BUSY. PROBE_ANSWER with the awaited tag writes the identity and begins SET_RATE; where
the maximum rate is below the port's rate the head is in FAULT with RATE_LIMIT and PORT_FAULT, and the request is completed.
SET_RATE_ACK with the awaited tag makes the head READY with fault count 0, or leaves it in FAULT where a fault was taken since
the PROBE, and the request is completed. An answer with the awaited tag of the wrong kind is a head fault with HEAD_PROTOCOL and
detail 0, and the exchange goes on waiting. PORT_FAULT sets PORT_ATTENTION for the lane that owns the port, and no other lane's
unit changes. An answer of another tag, or without an exchange, changes nothing. The kind of clock source in the SET_RATE is the
model's presumption of notes/assumptions/26.md; that an answer is awaited until its 50,000 periods have gone by, and not at that
period, is its inference of notes/assumptions/22.md. -/
def Obligations.AnAnsweredExchangeBringsTheHeadUp : Prop :=
  ∀ (s : State) (l : Lane) (p : Port) (r : PortRec), r = s.ports.get p →
    (∀ b : BitVec 8, s.Handed l (.restartPort b) anyFlag → b.toNat = p.val → (l = 0 ∨ l = r.owner) →
      (r.exchange.isSome = true → exec (.restartPort l b) s = .next (s.answer l ⟨.portBusy, .empty⟩)) ∧
      (r.exchange = none → ∃ u : State, exec (.restartPort l b) s = .next u ∧
        u.ports.get p = { r with
          tag := r.tag + 1
          exchange := some ⟨.probe, r.tag + 1, .restart l, s.refTime + 50000, s.sceneTime, false⟩ } ∧
        s.otherPorts u p ∧ u.sent = s.sent ++ [.probe p (r.tag + 1)] ∧
        u.units.get l = { s.units.get l with state := .active .held } ∧ s.otherUnits u l ∧
        u = { s with ports := u.ports, units := u.units, sent := u.sent })) ∧
    (∀ x id max, r.exchange = some x → s.refTime < x.due → x.kind = .probe → x.purpose = .restart l →
      (s.portRate p ≤ max → ∃ u : State, exec (.probeAnswer p x.tag id max) s = .next u ∧
        u.ports.get p = { r with
          identity := some ⟨id, max⟩, tag := r.tag + 1, head := if x.faulted = true then .fault else r.head
          exchange := some ⟨.setRate, r.tag + 1, .restart l, s.refTime + 50000, s.sceneTime, x.faulted⟩ } ∧
        s.otherPorts u p ∧ u.sent = s.sent ++ [.setRate p (r.tag + 1) (s.portRate p) (s.runsExternal p)] ∧
        u = { s with ports := u.ports, sent := u.sent }) ∧
      (max < s.portRate p → s.phase = .ready → ∃ u : State, exec (.probeAnswer p x.tag id max) s = .next u ∧
        u.ports.get p = { r with
          identity := some ⟨id, max⟩, exchange := none, head := .fault, detail := some ⟨.rateLimit, max, s.sceneTime⟩
          faultCount := if r.faultCount < 65535 then r.faultCount + 1 else r.faultCount
          attention := true, causes := { r.causes with portFault := true } } ∧
        s.otherPorts u p ∧ s.PortAttentionSet u r.owner ∧
        u.inFlight = s.inFlight ++ [.heldDone l ⟨.done, .head .fault (some ⟨id, max⟩)⟩ 0] ∧
        u = { s with ports := u.ports, units := u.units, sent := u.sent, inFlight := u.inFlight })) ∧
    (∀ x, r.exchange = some x → s.refTime < x.due → x.kind = .setRate → x.purpose = .restart l →
      ∃ u : State, ∃ k, exec (.setRateAck p x.tag) s = .next u ∧ u.ports.get p = k ∧
        (x.faulted = false → k = { r with exchange := none, head := .ready, faultCount := 0 }) ∧
        (x.faulted = true → k = { r with exchange := none, head := .fault }) ∧ s.otherPorts u p ∧
        (x.faulted = false →
          u.inFlight = s.inFlight ++ [.heldDone l ⟨.done, .head .ready r.identity⟩ 0]) ∧
        (x.faulted = true → u.inFlight = s.inFlight ++ [.heldDone l ⟨.done, .headState .fault⟩ 0]) ∧
        u = { s with ports := u.ports, inFlight := u.inFlight }) ∧
    (∀ x id max c, r.exchange = some x → s.refTime < x.due → s.phase = .ready → x.purpose ≠ .startUp →
      (x.kind = .probe ∧ c = .setRateAck p x.tag ∨ x.kind = .setRate ∧ c = .probeAnswer p x.tag id max) →
      ∃ u : State, exec c s = .next u ∧ u.ports.get p = { r with
          head := .fault, detail := some ⟨.headProtocol, 0, s.sceneTime⟩
          faultCount := if r.faultCount < 65535 then r.faultCount + 1 else r.faultCount
          exchange := some { x with faulted := true }, attention := true, causes := { r.causes with portFault := true } } ∧
        s.otherPorts u p ∧ s.PortAttentionSet u r.owner ∧
        u = { s with ports := u.ports, units := u.units, sent := u.sent }) ∧
    (∀ tag id max, (∀ x, r.exchange = some x → x.tag ≠ tag) →
      exec (.probeAnswer p tag id max) s = .next s ∧ exec (.setRateAck p tag) s = .next s)

/-- HEAD_EXCHANGE_TIMEOUT once the answer is due: a PROBE leaves the head UNFITTED and its identity absent, with HEAD_LOST
for a head that was not UNFITTED; a SET_RATE leaves the head in FAULT with NO_RESPONSE and PORT_FAULT; the RESTART_PORT that
began it is completed with HEAD_NO_RESPONSE. HEAD_LOST and PORT_FAULT set PORT_ATTENTION for the lane that owns the port,
and no other lane's unit changes; a PROBE timeout of an UNFITTED head changes no unit. Before that time nothing changes.
HEAD_STATUS_MESSAGE takes a head fault with its condition and detail, a message that contradicts itself as HEAD_PROTOCOL;
while the part is STARTING it raises no attention; a good status, and any status of an UNFITTED head, changes nothing. -/
def Obligations.AHeadFaultIsRecorded : Prop :=
  ∀ (s : State) (p : Port) (r : PortRec), r = s.ports.get p →
    (∀ x, r.exchange = some x → s.refTime < x.due → exec (.headExchangeTimeout p) s = .next s) ∧
    (∀ x l, r.exchange = some x → x.due ≤ s.refTime → x.purpose = .restart l → s.phase = .ready →
      ∃ u : State, ∃ k, exec (.headExchangeTimeout p) s = .next u ∧ u.ports.get p = k ∧
        (x.kind = .probe → r.head = .unfitted →
          k = { r with exchange := none, identity := none } ∧ u.units = s.units ∧ u.sent = s.sent) ∧
        (x.kind = .probe → r.head ≠ .unfitted → k = { r with
          exchange := none, identity := none, head := .unfitted, attention := true
          causes := { r.causes with headLost := true } } ∧ s.PortAttentionSet u r.owner) ∧
        (x.kind = .setRate → k = { r with
          exchange := none, head := .fault, detail := some ⟨.noResponse, 0, s.sceneTime⟩
          faultCount := if r.faultCount < 65535 then r.faultCount + 1 else r.faultCount
          attention := true, causes := { r.causes with portFault := true } } ∧ s.PortAttentionSet u r.owner) ∧
        s.otherPorts u p ∧ u.inFlight = s.inFlight ++ [.heldDone l ⟨.headNoResponse, .empty⟩ 0] ∧
        u = { s with ports := u.ports, units := u.units, sent := u.sent, inFlight := u.inFlight }) ∧
    (∀ ready condition detail, r.head = .unfitted ∨ (ready = true ∧ condition = .none) →
      exec (.headStatusMessage p ready condition detail) s = .next s) ∧
    (∀ ready condition detail c, r.head ≠ .unfitted →
      (∀ x, r.exchange = some x → x.purpose = .startUp → x.kind = .setRate) →
      (ready = false ∧ condition = .overdrive ∧ c = FaultCondition.overdrive ∨
        ready = false ∧ condition = .lockLost ∧ c = FaultCondition.lockLost ∨
        ready = true ∧ condition ≠ .none ∧ c = FaultCondition.headProtocol ∨
        ready = false ∧ condition = .none ∧ c = FaultCondition.headProtocol) →
      ∃ u : State, ∃ k, exec (.headStatusMessage p ready condition detail) s = .next u ∧
        k = { r with
          head := .fault, detail := some ⟨c, detail.toNat, s.sceneTime⟩
          faultCount := if r.faultCount < 65535 then r.faultCount + 1 else r.faultCount
          exchange := r.exchange.map (fun x => { x with faulted := true }) } ∧
        s.otherPorts u p ∧
        (s.phase = .ready → u.ports.get p = { k with attention := true, causes := { r.causes with portFault := true } } ∧
          s.PortAttentionSet u r.owner ∧ u = { s with ports := u.ports, units := u.units, sent := u.sent }) ∧
        (s.phase ≠ .ready → u.ports.get p = k ∧ u = { s with ports := u.ports }))

/-! ## SCAN and SET_LANE -/

/-- SCAN with its starting point in range begins its visit there, or at emitter slot 0; one out of range is answered with RANGE.
SCAN_CLASS_READ finds, in ascending order, everything in scope from its slot on in the class it stands at, or at the one port:
the emitters, clips and ports of the acting lane (all, for L0) with their attention flag set, drained notes, and unclaimed
notes. It reports as many of them as fit beside the continuation word (how many words an entry takes is free:
notes/assumptions/7.md), and where the block carries CLEAR it clears what it reported and leaves every other record as it was;
it goes on to the next class, or completes with the continuation word. -/
def Obligations.AScanVisitsEveryClass : Prop :=
  ∀ s : State,
    (∀ (l : Lane) (first : Option ScanStart) (clear : Bool), s.Handed l (.scan first) (fun h => h.clear == clear) →
      (first = none → exec (.scan l first clear) s = .next { s with
        walk := some (.scan ⟨l, clear, .emitters, 0, [], 0, (s.units.get l).header.resLen.toNat⟩) }) ∧
      (∀ c n, first = some ⟨some c, n⟩ → n < scanRange c → exec (.scan l first clear) s = .next { s with
        walk := some (.scan ⟨l, clear, c, n, [], 0, (s.units.get l).header.resLen.toNat⟩) }) ∧
      (∀ c n, first = some ⟨some c, n⟩ → scanRange c ≤ n →
        exec (.scan l first clear) s = .next (s.answer l ⟨.range, .empty⟩))) ∧
    (∀ (w : ScanWalk) (found : List (Nat × ScanEntry)), s.walk = some (.scan w) → found = s.scanFound w →
      (found.map (·.1)).Pairwise (· < ·) ∧
      (∀ n e, (n, e) ∈ found ↔
        (w.cls = .emitters ∧ w.slot ≤ n ∧ ∃ i : EntryNo, ∃ r, i.val = n ∧ (s.entries.get i).record = some r ∧
          (w.lane = 0 ∨ w.lane = r.lane) ∧ r.attention = true ∧
          e = .emitter ⟨i, (s.entries.get i).gen⟩ r.state r.causes) ∨
        (w.cls = .clips ∧ w.slot ≤ n ∧ ∃ i : ClipNo, i.val = n ∧
          ((∃ c, (s.clips.get i).clip = some c ∧ (w.lane = 0 ∨ w.lane = c.lane) ∧ c.attention = true ∧
              e = .clip ⟨i, (s.clips.get i).gen⟩ c.state c.causes) ∨
            (∃ x, (s.clips.get i).clip = none ∧ (s.clips.get i).note = some x ∧ (w.lane = 0 ∨ w.lane = x.lane) ∧
              e = .note x))) ∨
        (w.cls = .ports ∧ w.slot = n ∧ ∃ i : Port, i.val = n ∧ (w.lane = 0 ∨ w.lane = (s.ports.get i).owner) ∧
          (s.ports.get i).attention = true ∧ e = .port i (s.ports.get i).head (s.ports.get i).causes) ∨
        (w.cls = .triggers ∧ w.slot ≤ n ∧ ∃ i : Trigger, ∃ x, i.val = n ∧ (s.triggers.get i).note = some x ∧
          (w.lane = 0 ∨ w.lane = (s.triggers.get i).owner) ∧ e = .trigger i x.latest x.count)) ∧
      ∃ t u : State, ∃ n written, exec .scanClassRead s = .next u ∧ n ≤ found.length ∧
        written = (found.take n).map (·.2) ∧ (0 < n → w.used + wordsOf written + 1 ≤ w.room) ∧
        (∀ x, found[n]? = some x → w.room < w.used + wordsOf written + x.2.words + 1) ∧ t.walk = none ∧
        (∀ x, found[n]? = some x → u = t.beginWrite w.lane
          ⟨.done, .scan (w.entries ++ written) (.from w.cls x.1)⟩ (min (w.used + wordsOf written + 1) w.room) false) ∧
        (n = found.length → w.cls = .triggers → u = t.beginWrite w.lane
          ⟨.done, .scan (w.entries ++ written) .doneAll⟩ (min (w.used + wordsOf written + 1) w.room) false) ∧
        (n = found.length → w.cls ≠ .triggers → ∃ v, u = { t with walk := some (.scan v) } ∧
          v = { w with cls := v.cls, slot := v.slot, entries := w.entries ++ written, used := w.used + wordsOf written } ∧
          (w.cls = .emitters → v.cls = .clips ∧ v.slot = 0) ∧ (w.cls = .clips → v.cls = .ports ∧ v.slot = 0) ∧
          (w.cls = .ports → w.slot < 7 → v.cls = .ports ∧ v.slot = w.slot + 1) ∧
          (w.cls = .ports → 7 ≤ w.slot → v.cls = .triggers ∧ v.slot = 0)) ∧
        (w.clear = false → t = { s with walk := none }) ∧
        (w.clear = true → (∀ h st causes r, .emitter h st causes ∈ written → s.recordAt h = some r →
            t.recordAt h = some { r with attention := false, causes := {} }) ∧
          (∀ h st causes c, .clip h st causes ∈ written → s.clipAt h = some c →
            t.clipAt h = some { c with attention := false, causes := {} }) ∧
          (∀ x, .note x ∈ written → (t.clips.get x.handle.slot).note = none) ∧
          (∀ k st causes, .port k st causes ∈ written →
            t.ports.get k = { s.ports.get k with attention := false, causes := {} }) ∧
          (∀ k latest count, .trigger k latest count ∈ written → t.triggers.get k = { s.triggers.get k with note := none }) ∧
          (∀ i, (∀ h st causes, .emitter h st causes ∈ written → h.slot ≠ i) → t.entries.get i = s.entries.get i) ∧
          (∀ i, (∀ h st causes, .clip h st causes ∈ written → h.slot ≠ i) → (∀ x, .note x ∈ written → x.handle.slot ≠ i) →
            t.clips.get i = s.clips.get i) ∧
          (∀ k, (∀ st causes, .port k st causes ∉ written) → t.ports.get k = s.ports.get k) ∧
          (∀ k, (∀ latest count, .trigger k latest count ∉ written) → t.triggers.get k = s.triggers.get k) ∧
          t = { s with
            walk := none, entries := t.entries, clips := t.clips, ports := t.ports, triggers := t.triggers }))

/-- SET_LANE of a lane other than L0 with good form and ranges is answered with LANE_DENIED; one that is accepted hands its
parts to their owners in turn: host window, spent interval, trigger settings. SET_LANE_PART: the request engine takes the host
window, the controller the spent interval, the trigger and cue unit the trigger settings, each of which keeps the trigger's
line, lists and note; after the last part the block is answered with DONE. A candidate stays in place; one that has been held
for the new qualification time settles the level within the event, and an edge event is sent where that level is the active one
of the new setting. That a candidate which has been held for the old qualification time settles first, with the old setting and
at its own time, is the model's inference of notes/assumptions/32.md; that an unknown edge and more than eight settings are no
good form, its choice of notes/assumptions/23.md. -/
def Obligations.SetLaneHandsItsPartsOn : Prop :=
  ∀ (s : State) (l : Lane),
    (∀ (q : SetLaneReq) (target : Lane) (xs : List TriggerSetting) (parts : List LanePart), s.Handed l (.setLane q) anyFlag →
      q.target.toNat = target.val → (∀ a b, q.window = some (a, b) → target ≠ 0 ∧ a.toNat ≤ b.toNat) →
      (∀ n, q.interval = some n → n ≤ 10000) →
      List.Forall₂ (fun (f : TriggerField) (x : TriggerSetting) =>
        f.trigger.toNat = x.trigger.val ∧ (f.edge = .rising ∧ x.edge = .rising ∨ f.edge = .falling ∧ x.edge = .falling) ∧
          1 ≤ f.qualification ∧ f.qualification ≤ 255 ∧ x.qualification = f.qualification ∧
          f.owner.toNat = x.owner.val) q.triggers xs →
      (q.triggers.map (·.trigger)).Nodup → q.triggers.length ≤ 8 →
      q.window.isSome = true ∨ q.interval.isSome = true ∨ q.triggers ≠ [] →
      parts = (q.window.map fun w => LanePart.window target ⟨w.1, w.2⟩).toList ++
        (q.interval.map fun n => LanePart.interval target n).toList ++ (if xs = [] then [] else [.triggers xs]) →
      (l ≠ 0 → exec (.setLane l q) s = .next (s.answer l ⟨.laneDenied, .empty⟩)) ∧
      (l = 0 → exec (.setLane l q) s = .next { s with walk := some (.setLane l parts) })) ∧
    (∀ part rest, s.walk = some (.setLane l (part :: rest)) → ∃ t : State,
      (rest = [] → exec .setLanePart s = .next ({ t with walk := none }.answer l ⟨.done, .empty⟩)) ∧
      (rest ≠ [] → exec .setLanePart s = .next { t with walk := some (.setLane l rest) }) ∧
      (∀ target w, part = .window target w → t.units.get target = { s.units.get target with window := some w } ∧
        s.otherUnits t target ∧ t = { s with units := t.units }) ∧
      (∀ target ms, part = .interval target ms → t.spentIntervals.get target = ms ∧
        (∀ k, k ≠ target → t.spentIntervals.get k = s.spentIntervals.get k) ∧
        t = { s with spentIntervals := t.spentIntervals }) ∧
      (∀ xs, part = .triggers xs → (xs.map (·.trigger)).Nodup → ∃ edges : TriggerSetting → List Message,
        (∀ x ∈ xs, ∀ r, r = s.triggers.get x.trigger → ∃ settled candidate,
          t.triggers.get x.trigger = { r with
            edge := x.edge, qualification := x.qualification, owner := x.owner, settled := settled, candidate := candidate } ∧
          ((s.phase ≠ .ready ∨ r.line = r.settled ∨
              ∀ c, r.candidate = some c → s.now < c + 10 * r.qualification ∧ s.now < c + 10 * x.qualification) →
            settled = r.settled ∧ candidate = r.candidate ∧ edges x = []) ∧
          (∀ c, s.phase = .ready → r.line ≠ r.settled → r.candidate = some c → c + 10 * r.qualification ≤ s.now →
            settled = r.line ∧ candidate = none ∧
            edges x = if r.line = decide (r.edge = .rising) then [.edge x.trigger (c + 10 * r.qualification)] else []) ∧
          (∀ c, s.phase = .ready → r.line ≠ r.settled → r.candidate = some c → s.now < c + 10 * r.qualification →
            c + 10 * x.qualification ≤ s.now → settled = r.line ∧ candidate = none ∧
            edges x = if r.line = decide (x.edge = .rising) then [.edge x.trigger s.now] else [])) ∧
        (∀ k, k ∉ xs.map (·.trigger) → t.triggers.get k = s.triggers.get k) ∧
        t.inFlight = s.inFlight ++ xs.flatMap edges ∧ t = { s with triggers := t.triggers, inFlight := t.inFlight }))

/-! ## The profile -/

/-- PROFILE_READ_DONE of the header read: with the 16 bytes of the header the block read is issued, for as many bytes as the
block length gives, with 5 ms of its own. A read that fails or is too short, a block that is not good, and
PROFILE_READ_TIMEOUT of either read set the profile aside with PROFILE_DEFAULTS, and every setting stays; a block is good
when its length is 16 to 4,096 and all of it is there, its format number is 1, the CRC-32 of its bytes from 0x08 on is the
stored one, and its zero field is zero; a good block has its sections taken, and changes none but the settings of ports,
triggers and lanes. Then a PROBE begins on every head. Another read, and a timeout before its time, change nothing. A
section of good entries, none named twice, sets what they name: the clock source, owner and budget of a port, where then no
port follows itself or a follower; the edge, qualification time and owner of a trigger; the host window and spent interval
of a lane. Any other section is skipped, and sets PROFILE_PARTIAL; one that would reach past the block is skipped with every
one after it. That an answer at or after 50,000 periods is dropped is the model's inference of notes/assumptions/22.md; that
the block read gives the block from its start, and that fewer bytes than the block length are an absent profile, is its
inference of notes/assumptions/27.md; that the section count is taken as it stands is its choice of
notes/assumptions/40.md. -/
def Obligations.TheProfileIsSettledAndTheHeadsProbed : Prop :=
  (∀ (bytes : List Byte) (len : Nat), len = fieldAt bytes 0 2 →
     (profileGood bytes = true ↔ 16 ≤ bytes.length ∧ 16 ≤ len ∧ len ≤ 4096 ∧ len ≤ bytes.length ∧ fieldAt bytes 2 2 = 1 ∧
       (crc32 ((bytes.take len).drop 8)).toNat = fieldAt bytes 4 4 ∧ fieldAt bytes 10 6 = 0)) ∧
  (∀ (s : State) (tag at_ : Nat),
     (s.phase = .readingProfile tag at_ ∨ ∃ len, s.phase = .readingBlock tag at_ len) →
     (∀ k flash, k ≠ tag ∨ at_ + 50000 ≤ s.refTime → exec (.profileReadDone k flash) s = .next s) ∧
     (s.refTime < at_ + 50000 → exec .profileReadTimeout s = .next s) ∧
     (∀ bytes, s.phase = .readingProfile tag at_ → s.refTime < at_ + 50000 → 16 ≤ bytes.length →
       exec (.profileReadDone tag (.data bytes)) s = .next { s with
         phase := .readingBlock s.nextTag s.refTime (fieldAt bytes 0 2), nextTag := s.nextTag + 1 }) ∧
     (∀ (c : Instr) (t : State),
       (t = { s with profileDefaults := true } ∧
         (c = .profileReadTimeout ∧ at_ + 50000 ≤ s.refTime ∨
          s.refTime < at_ + 50000 ∧ (c = .profileReadDone tag .failed ∨ ∃ bytes, c = .profileReadDone tag (.data bytes) ∧
            (s.phase = .readingProfile tag at_ ∧ bytes.length < 16 ∨
             ∃ len, s.phase = .readingBlock tag at_ len ∧ (bytes.length < len ∨ profileGood bytes = false)))) ∨
        ∃ len bytes, s.phase = .readingBlock tag at_ len ∧ s.refTime < at_ + 50000 ∧ len ≤ bytes.length ∧
          profileGood bytes = true ∧ c = .profileReadDone tag (.data bytes) ∧
          t = State.takeSections (fieldAt bytes 8 2) ((bytes.take (fieldAt bytes 0 2)).drop 16) s) →
       ∃ u : State, exec c s = .next u ∧ u.phase = .probing ∧
         (∀ p, u.ports.get p = { t.ports.get p with
           tag := (t.ports.get p).tag + 1
           exchange := some ⟨.probe, (t.ports.get p).tag + 1, .startUp, s.refTime + 50000, s.sceneTime, false⟩ }) ∧
         u = { t with
           phase := .probing, ports := u.ports
           sent := s.sent ++ (List.finRange 8).map fun p => .probe p ((t.ports.get p).tag + 1) })) ∧
  (∀ (s t : State) (n : Nat) (rest : List Byte), t = State.takeSections n rest s →
     (∀ p, t.ports.get p = { s.ports.get p with
       clock := (t.ports.get p).clock, owner := (t.ports.get p).owner, budget := (t.ports.get p).budget }) ∧
     (∀ k, t.triggers.get k = { s.triggers.get k with
       edge := (t.triggers.get k).edge, qualification := (t.triggers.get k).qualification
       owner := (t.triggers.get k).owner }) ∧
     (∀ k, t.units.get k = { s.units.get k with window := (t.units.get k).window }) ∧
     t = { s with
       profilePartial := t.profilePartial, units := t.units, spentIntervals := t.spentIntervals, ports := t.ports
       triggers := t.triggers } ∧
     (n = 0 → t = s) ∧
     (∀ m len, n = m + 1 → len = fieldAt rest 2 2 →
       (rest.length < 4 ∨ rest.length < 4 + len → t = { s with profilePartial := true }) ∧
       (4 + len ≤ rest.length →
         (∀ v, s.applySection (byteAt rest 0) (byteAt rest 1) ((rest.drop 4).take len) = some v →
           t = State.takeSections m (rest.drop (4 + len)) v) ∧
         (s.applySection (byteAt rest 0) (byteAt rest 1) ((rest.drop 4).take len) = none →
           t = State.takeSections m (rest.drop (4 + len)) { s with profilePartial := true })))) ∧
  (∀ (s t : State) (kind spare : Nat) (body : List Byte), s.applySection kind spare body = some t ↔ spare = 0 ∧
     ((kind = 1 ∧ ∃ xs : List PortSetting, xs ≠ [] ∧ body.length = 12 * xs.length ∧ (xs.map (·.port)).Nodup ∧
         (∀ i x, xs[i]? = some x → portSetting ((body.drop (12 * i)).take 12) = some x) ∧
         (∀ x ∈ xs, t.ports.get x.port = { s.ports.get x.port with clock := x.clock, owner := x.owner, budget := x.budget }) ∧
         (∀ p, p ∉ xs.map (·.port) → t.ports.get p = s.ports.get p) ∧ t.followSound ∧ t = { s with ports := t.ports }) ∨
      (kind = 2 ∧ ∃ xs : List TriggerSetting, xs ≠ [] ∧ body.length = 4 * xs.length ∧ (xs.map (·.trigger)).Nodup ∧
         (∀ i x, xs[i]? = some x → profileTrigger ((body.drop (4 * i)).take 4) = some x) ∧
         (∀ x ∈ xs, t.triggers.get x.trigger = { s.triggers.get x.trigger with
           edge := x.edge, qualification := x.qualification, owner := x.owner }) ∧
         (∀ k, k ∉ xs.map (·.trigger) → t.triggers.get k = s.triggers.get k) ∧ t = { s with triggers := t.triggers }) ∨
      (kind = 3 ∧ ∃ xs : List LaneSetting, xs ≠ [] ∧ body.length = 24 * xs.length ∧ (xs.map (·.lane)).Nodup ∧
         (∀ i x, xs[i]? = some x → laneSetting ((body.drop (24 * i)).take 24) = some x) ∧
         (∀ x ∈ xs, t.units.get x.lane = { s.units.get x.lane with window := x.window } ∧
           t.spentIntervals.get x.lane = x.interval) ∧
         (∀ k, k ∉ xs.map (·.lane) → t.units.get k = s.units.get k ∧ t.spentIntervals.get k = s.spentIntervals.get k) ∧
         t = { s with units := t.units, spentIntervals := t.spentIntervals }))) ∧
  (∀ (e : List Byte),
     (∀ x, portSetting e = some x ↔ byteAt e 0 = x.port.val ∧ byteAt e 3 = x.owner.val ∧ fieldAt e 4 2 = x.budget ∧
       256 ≤ x.budget ∧ x.budget ≤ 8192 ∧ fieldAt e 6 2 = 0 ∧
       (byteAt e 1 = 0 ∧ byteAt e 2 ∈ [1, 2, 4, 8, 16] ∧ fieldAt e 8 4 = 0 ∧ x.clock = .synth (byteAt e 2) ∨
        byteAt e 1 = 1 ∧ fieldAt e 8 4 = 0 ∧ (∃ k : Port, k.val = byteAt e 2 ∧ x.clock = .follow k) ∨
        byteAt e 1 = 2 ∧ byteAt e 2 = 0 ∧ 1000000 ≤ fieldAt e 8 4 ∧ fieldAt e 8 4 ≤ 80000000 ∧
          x.clock = .external (fieldAt e 8 4))) ∧
     (∀ x, profileTrigger e = some x ↔ byteAt e 0 = x.trigger.val ∧ byteAt e 3 = x.owner.val ∧
       byteAt e 2 = x.qualification ∧ 1 ≤ x.qualification ∧
       (byteAt e 1 = 0 ∧ x.edge = .rising ∨ byteAt e 1 = 1 ∧ x.edge = .falling)) ∧
     (∀ x, laneSetting e = some x ↔ byteAt e 0 = x.lane.val ∧ fieldAt e 2 2 = x.interval ∧ x.interval ≤ 10000 ∧
       fieldAt e 4 4 = 0 ∧
       (byteAt e 1 = 0 ∧ fieldAt e 8 8 = 0 ∧ fieldAt e 16 8 = 0 ∧
          x.window = (if x.lane = 0 then none else some HostWindow.unrestricted) ∨
        byteAt e 1 = 1 ∧ x.lane ≠ 0 ∧ fieldAt e 8 8 ≤ fieldAt e 16 8 ∧
          x.window = some ⟨BitVec.ofNat 64 (fieldAt e 8 8), BitVec.ofNat 64 (fieldAt e 16 8)⟩)))

/-- SET_RATE_ACK of start-up makes the head READY; when it ends the last exchange of start-up the part becomes READY, and each
trigger's settled level is taken from its line, with no candidate. The exchanges of start-up before that: PROBE_ANSWER writes
the identity and begins SET_RATE with the port's rate, or, where the maximum rate is below it, leaves the head in FAULT with
RATE_LIMIT; a PROBE that times out leaves the head UNFITTED and its identity absent; a SET_RATE that times out leaves it in
FAULT with NO_RESPONSE; an answer of the wrong kind is a head fault with HEAD_PROTOCOL, which leaves a head that is being probed
UNFITTED until its PROBE is answered (the model's inference of notes/assumptions/16.md), and after which an acknowledged
SET_RATE leaves it in FAULT. None raises attention. Each of them that ends the last exchange makes the part READY in the same
way. The kind of clock source in the SET_RATE of a follower is the model's presumption of notes/assumptions/26.md; that an
answer is awaited until its 50,000 periods have gone by, and not at that period, its inference of notes/assumptions/22.md; that
the head stays UNFITTED while the SET_RATE is in flight, and that every fault of start-up raises the fault count by one, also a
second one, its choices of notes/assumptions/50.md and 51.md. -/
def Obligations.TheLastHeadMakesThePartReady : Prop :=
  (∀ (s : State) (p : Port) (x : Exchange), (s.ports.get p).exchange = some x → x.kind = .setRate → x.purpose = .startUp →
     x.faulted = false → s.refTime < x.due → s.phase = .probing →
     ∃ u : State, exec (.setRateAck p x.tag) s = .next u ∧
       u.ports.get p = { s.ports.get p with exchange := none, head := .ready, faultCount := 0 } ∧ s.otherPorts u p ∧
       ((∀ k, k ≠ p → (s.ports.get k).exchange = none) → u.phase = .ready ∧
         (∀ t, u.triggers.get t = { s.triggers.get t with settled := (s.triggers.get t).line, candidate := none })) ∧
       (∀ k y, k ≠ p → (s.ports.get k).exchange = some y → y.purpose = .startUp → u.phase = .probing ∧
         u.triggers = s.triggers) ∧
       u = { s with ports := u.ports, phase := u.phase, triggers := u.triggers }) ∧
  (∀ (s : State) (p : Port) (r : PortRec) (x : Exchange) (count : Nat), r = s.ports.get p → r.exchange = some x →
     x.purpose = .startUp → s.phase = .probing → count = (if r.faultCount < 65535 then r.faultCount + 1 else r.faultCount) →
     (∀ id max, x.kind = .probe → s.refTime < x.due → s.portRate p ≤ max →
       ∃ u : State, exec (.probeAnswer p x.tag id max) s = .next u ∧ u.ports.get p = { r with
           identity := some ⟨id, max⟩, tag := r.tag + 1, head := if x.faulted = true then .fault else r.head
           exchange := some ⟨.setRate, r.tag + 1, .startUp, s.refTime + 50000, s.sceneTime, x.faulted⟩ } ∧
         s.otherPorts u p ∧ u.sent = s.sent ++ [.setRate p (r.tag + 1) (s.portRate p) (s.runsExternal p)] ∧
         u = { s with ports := u.ports, sent := u.sent }) ∧
     (∀ c k,
       ((∃ id max, c = .probeAnswer p x.tag id max ∧ x.kind = .probe ∧ s.refTime < x.due ∧ max < s.portRate p ∧ k = { r with
           identity := some ⟨id, max⟩, exchange := none, head := .fault, detail := some ⟨.rateLimit, max, s.sceneTime⟩
           faultCount := count }) ∨
        (c = .headExchangeTimeout p ∧ x.due ≤ s.refTime ∧ x.kind = .probe ∧ k = { r with
           exchange := none, head := .unfitted, identity := none }) ∨
        (c = .headExchangeTimeout p ∧ x.due ≤ s.refTime ∧ x.kind = .setRate ∧ k = { r with
           exchange := none, head := .fault, detail := some ⟨.noResponse, 0, s.sceneTime⟩, faultCount := count }) ∨
        (c = .setRateAck p x.tag ∧ s.refTime < x.due ∧ x.kind = .setRate ∧ x.faulted = true ∧ k = { r with
           exchange := none, head := .fault })) →
       ∃ u : State, exec c s = .next u ∧ u.ports.get p = k ∧ s.otherPorts u p ∧
         (s.lastToStart p → s.BecameReady u) ∧
         (¬ s.lastToStart p → u.phase = .probing ∧ u.triggers = s.triggers) ∧
         u = { s with ports := u.ports, phase := u.phase, triggers := u.triggers }) ∧
     (∀ c id max, s.refTime < x.due →
       (x.kind = .probe ∧ c = .setRateAck p x.tag ∨ x.kind = .setRate ∧ c = .probeAnswer p x.tag id max) →
       ∃ u : State, exec c s = .next u ∧ u.ports.get p = { r with
           head := if x.kind = .probe then r.head else .fault, detail := some ⟨.headProtocol, 0, s.sceneTime⟩
           faultCount := count, exchange := some { x with faulted := true } } ∧
         s.otherPorts u p ∧ u = { s with ports := u.ports }))

/-! ## Invariants of every step -/

/-- The state right after reset has every property that the five statements after this one say each step keeps. -/
def Obligations.ResetHasTheInvariants : Prop :=
  State.reset.memorySound ∧ State.reset.rateSound ∧ State.reset.generationsSound ∧ State.reset.startingQuiet ∧
  State.reset.followSound ∧ State.reset.supervisorFree

/-- Every step keeps clip memory in its canonical form inside its 4 GiB, and every clip of the catalog inside it. -/
def Obligations.EveryStepKeepsClipMemorySound : Prop :=
  ∀ s t : State, s.memorySound → step s = .next t → t.memorySound

/-- Every step keeps the sum of the clip rates of the held slots at or below the fetch rate budget. -/
def Obligations.EveryStepKeepsTheRateBudget : Prop :=
  ∀ s t : State, s.rateSound → step s = .next t → t.rateSound

/-- Every step keeps every slot generation other than 0. -/
def Obligations.EveryStepKeepsTheGenerations : Prop :=
  ∀ s t : State, s.generationsSound → step s = .next t → t.generationsSound

/-- Every step keeps the part quiet while it is STARTING. -/
def Obligations.EveryStepKeepsStartingQuiet : Prop :=
  ∀ s t : State, s.startingQuiet → step s = .next t → t.startingQuiet

/-- Every step keeps each follower's leader from following, and the supervising lane free of a host window. -/
def Obligations.EveryStepKeepsLeadersAndTheSupervisor : Prop :=
  (∀ s t : State, s.followSound → step s = .next t → t.followSound) ∧
  (∀ s t : State, s.supervisorFree → step s = .next t → t.supervisorFree)
end

