-- ==== Sys2Proof/Laws/Table.lean ====
section
/-! SUPPORT. The laws of the fixed-size tables: what a read gives after a write, a map or a fill. -/

namespace Sys2Proof

@[simp] theorem Table.get_set_self {α : Type} {n : Nat} (t : Table α n) (i : Fin n) (a : α) : (t.set i a).get i = a := by
  simp [Table.get, Table.set]

theorem Table.get_set_ne {α : Type} {n : Nat} (t : Table α n) (i k : Fin n) (a : α) (h : k ≠ i) :
    (t.set i a).get k = t.get k := by
  have : i.val ≠ k.val := fun e => h (Fin.ext e.symm)
  simp [Table.get, Table.set, this]

theorem Table.get_set {α : Type} {n : Nat} (t : Table α n) (i k : Fin n) (a : α) :
    (t.set i a).get k = if k = i then a else t.get k := by
  by_cases h : k = i
  · subst h; simp
  · simp [h, Table.get_set_ne]

@[simp] theorem Table.get_map {α β : Type} {n : Nat} (t : Table α n) (f : α → β) (i : Fin n) :
    (t.map f).get i = f (t.get i) := by
  simp [Table.get, Table.map]

@[simp] theorem Table.get_fill {α : Type} {n : Nat} (a : α) (i : Fin n) : (Table.fill n a).get i = a := by
  simp [Table.get, Table.fill]

/-- Two tables with the same records are the same. -/
theorem Table.ext_get {α : Type} {n : Nat} (t u : Table α n) (h : ∀ i, t.get i = u.get i) : t = u := by
  obtain ⟨a, ha⟩ := t
  obtain ⟨b, hb⟩ := u
  have : a = b := by
    apply List.ext_getElem (by rw [ha, hb])
    intro i h1 h2
    exact h ⟨i, ha ▸ h1⟩
  subst this
  rfl

/-- A record that stands anywhere in the cells stands at some number. -/
theorem Table.mem_cells {α : Type} {n : Nat} (t : Table α n) (a : α) : a ∈ t.cells ↔ ∃ i, t.get i = a := by
  obtain ⟨c, hc⟩ := t
  simp only [Table.get]
  constructor
  · intro h
    obtain ⟨i, hi, e⟩ := List.getElem_of_mem h
    exact ⟨⟨i, hc ▸ hi⟩, e⟩
  · rintro ⟨i, rfl⟩
    exact List.getElem_mem _

end Sys2Proof
end

