-- ==== Sys2Proof/Laws/State.lean ====
section
/-!
SUPPORT. The frame of every setter of the state, one lemma for each field: all true by rfl.
-/

namespace Sys2Proof.Machine

@[simp] theorem State.setUnit_phase (s : State) (l : Lane) (u : RequestUnit) : (s.setUnit l u).phase = s.phase := rfl
@[simp] theorem State.setUnit_profileDefaults (s : State) (l : Lane) (u : RequestUnit) : (s.setUnit l u).profileDefaults = s.profileDefaults := rfl
@[simp] theorem State.setUnit_profilePartial (s : State) (l : Lane) (u : RequestUnit) : (s.setUnit l u).profilePartial = s.profilePartial := rfl
@[simp] theorem State.setUnit_refTime (s : State) (l : Lane) (u : RequestUnit) : (s.setUnit l u).refTime = s.refTime := rfl
@[simp] theorem State.setUnit_sceneTime (s : State) (l : Lane) (u : RequestUnit) : (s.setUnit l u).sceneTime = s.sceneTime := rfl
@[simp] theorem State.setUnit_latch (s : State) (l : Lane) (u : RequestUnit) : (s.setUnit l u).latch = s.latch := rfl
@[simp] theorem State.setUnit_units (s : State) (l : Lane) (u : RequestUnit) : (s.setUnit l u).units = s.units.set l u := rfl
@[simp] theorem State.setUnit_pointer (s : State) (l : Lane) (u : RequestUnit) : (s.setUnit l u).pointer = s.pointer := rfl
@[simp] theorem State.setUnit_walk (s : State) (l : Lane) (u : RequestUnit) : (s.setUnit l u).walk = s.walk := rfl
@[simp] theorem State.setUnit_writes (s : State) (l : Lane) (u : RequestUnit) : (s.setUnit l u).writes = s.writes := rfl
@[simp] theorem State.setUnit_spentIntervals (s : State) (l : Lane) (u : RequestUnit) : (s.setUnit l u).spentIntervals = s.spentIntervals := rfl
@[simp] theorem State.setUnit_entries (s : State) (l : Lane) (u : RequestUnit) : (s.setUnit l u).entries = s.entries := rfl
@[simp] theorem State.setUnit_spentList (s : State) (l : Lane) (u : RequestUnit) : (s.setUnit l u).spentList = s.spentList := rfl
@[simp] theorem State.setUnit_armSet (s : State) (l : Lane) (u : RequestUnit) : (s.setUnit l u).armSet = s.armSet := rfl
@[simp] theorem State.setUnit_fades (s : State) (l : Lane) (u : RequestUnit) : (s.setUnit l u).fades = s.fades := rfl
@[simp] theorem State.setUnit_timer (s : State) (l : Lane) (u : RequestUnit) : (s.setUnit l u).timer = s.timer := rfl
@[simp] theorem State.setUnit_inFlight (s : State) (l : Lane) (u : RequestUnit) : (s.setUnit l u).inFlight = s.inFlight := rfl
@[simp] theorem State.setUnit_triggers (s : State) (l : Lane) (u : RequestUnit) : (s.setUnit l u).triggers = s.triggers := rfl
@[simp] theorem State.setUnit_cues (s : State) (l : Lane) (u : RequestUnit) : (s.setUnit l u).cues = s.cues := rfl
@[simp] theorem State.setUnit_slots (s : State) (l : Lane) (u : RequestUnit) : (s.setUnit l u).slots = s.slots := rfl
@[simp] theorem State.setUnit_strayReads (s : State) (l : Lane) (u : RequestUnit) : (s.setUnit l u).strayReads = s.strayReads := rfl
@[simp] theorem State.setUnit_grantQueue (s : State) (l : Lane) (u : RequestUnit) : (s.setUnit l u).grantQueue = s.grantQueue := rfl
@[simp] theorem State.setUnit_clips (s : State) (l : Lane) (u : RequestUnit) : (s.setUnit l u).clips = s.clips := rfl
@[simp] theorem State.setUnit_loadQueue (s : State) (l : Lane) (u : RequestUnit) : (s.setUnit l u).loadQueue = s.loadQueue := rfl
@[simp] theorem State.setUnit_copy (s : State) (l : Lane) (u : RequestUnit) : (s.setUnit l u).copy = s.copy := rfl
@[simp] theorem State.setUnit_clipMem (s : State) (l : Lane) (u : RequestUnit) : (s.setUnit l u).clipMem = s.clipMem := rfl
@[simp] theorem State.setUnit_powerOns (s : State) (l : Lane) (u : RequestUnit) : (s.setUnit l u).powerOns = s.powerOns := rfl
@[simp] theorem State.setUnit_ports (s : State) (l : Lane) (u : RequestUnit) : (s.setUnit l u).ports = s.ports := rfl
@[simp] theorem State.setUnit_nextTag (s : State) (l : Lane) (u : RequestUnit) : (s.setUnit l u).nextTag = s.nextTag := rfl
@[simp] theorem State.setUnit_sent (s : State) (l : Lane) (u : RequestUnit) : (s.setUnit l u).sent = s.sent := rfl
@[simp] theorem State.setUnit_pending (s : State) (l : Lane) (u : RequestUnit) : (s.setUnit l u).pending = s.pending := rfl

@[simp] theorem State.setEntry_phase (s : State) (i : EntryNo) (e : Entry) : (s.setEntry i e).phase = s.phase := rfl
@[simp] theorem State.setEntry_profileDefaults (s : State) (i : EntryNo) (e : Entry) : (s.setEntry i e).profileDefaults = s.profileDefaults := rfl
@[simp] theorem State.setEntry_profilePartial (s : State) (i : EntryNo) (e : Entry) : (s.setEntry i e).profilePartial = s.profilePartial := rfl
@[simp] theorem State.setEntry_refTime (s : State) (i : EntryNo) (e : Entry) : (s.setEntry i e).refTime = s.refTime := rfl
@[simp] theorem State.setEntry_sceneTime (s : State) (i : EntryNo) (e : Entry) : (s.setEntry i e).sceneTime = s.sceneTime := rfl
@[simp] theorem State.setEntry_latch (s : State) (i : EntryNo) (e : Entry) : (s.setEntry i e).latch = s.latch := rfl
@[simp] theorem State.setEntry_units (s : State) (i : EntryNo) (e : Entry) : (s.setEntry i e).units = s.units := rfl
@[simp] theorem State.setEntry_pointer (s : State) (i : EntryNo) (e : Entry) : (s.setEntry i e).pointer = s.pointer := rfl
@[simp] theorem State.setEntry_walk (s : State) (i : EntryNo) (e : Entry) : (s.setEntry i e).walk = s.walk := rfl
@[simp] theorem State.setEntry_writes (s : State) (i : EntryNo) (e : Entry) : (s.setEntry i e).writes = s.writes := rfl
@[simp] theorem State.setEntry_spentIntervals (s : State) (i : EntryNo) (e : Entry) : (s.setEntry i e).spentIntervals = s.spentIntervals := rfl
@[simp] theorem State.setEntry_entries (s : State) (i : EntryNo) (e : Entry) : (s.setEntry i e).entries = s.entries.set i e := rfl
@[simp] theorem State.setEntry_spentList (s : State) (i : EntryNo) (e : Entry) : (s.setEntry i e).spentList = s.spentList := rfl
@[simp] theorem State.setEntry_armSet (s : State) (i : EntryNo) (e : Entry) : (s.setEntry i e).armSet = s.armSet := rfl
@[simp] theorem State.setEntry_fades (s : State) (i : EntryNo) (e : Entry) : (s.setEntry i e).fades = s.fades := rfl
@[simp] theorem State.setEntry_timer (s : State) (i : EntryNo) (e : Entry) : (s.setEntry i e).timer = s.timer := rfl
@[simp] theorem State.setEntry_inFlight (s : State) (i : EntryNo) (e : Entry) : (s.setEntry i e).inFlight = s.inFlight := rfl
@[simp] theorem State.setEntry_triggers (s : State) (i : EntryNo) (e : Entry) : (s.setEntry i e).triggers = s.triggers := rfl
@[simp] theorem State.setEntry_cues (s : State) (i : EntryNo) (e : Entry) : (s.setEntry i e).cues = s.cues := rfl
@[simp] theorem State.setEntry_slots (s : State) (i : EntryNo) (e : Entry) : (s.setEntry i e).slots = s.slots := rfl
@[simp] theorem State.setEntry_strayReads (s : State) (i : EntryNo) (e : Entry) : (s.setEntry i e).strayReads = s.strayReads := rfl
@[simp] theorem State.setEntry_grantQueue (s : State) (i : EntryNo) (e : Entry) : (s.setEntry i e).grantQueue = s.grantQueue := rfl
@[simp] theorem State.setEntry_clips (s : State) (i : EntryNo) (e : Entry) : (s.setEntry i e).clips = s.clips := rfl
@[simp] theorem State.setEntry_loadQueue (s : State) (i : EntryNo) (e : Entry) : (s.setEntry i e).loadQueue = s.loadQueue := rfl
@[simp] theorem State.setEntry_copy (s : State) (i : EntryNo) (e : Entry) : (s.setEntry i e).copy = s.copy := rfl
@[simp] theorem State.setEntry_clipMem (s : State) (i : EntryNo) (e : Entry) : (s.setEntry i e).clipMem = s.clipMem := rfl
@[simp] theorem State.setEntry_powerOns (s : State) (i : EntryNo) (e : Entry) : (s.setEntry i e).powerOns = s.powerOns := rfl
@[simp] theorem State.setEntry_ports (s : State) (i : EntryNo) (e : Entry) : (s.setEntry i e).ports = s.ports := rfl
@[simp] theorem State.setEntry_nextTag (s : State) (i : EntryNo) (e : Entry) : (s.setEntry i e).nextTag = s.nextTag := rfl
@[simp] theorem State.setEntry_sent (s : State) (i : EntryNo) (e : Entry) : (s.setEntry i e).sent = s.sent := rfl
@[simp] theorem State.setEntry_pending (s : State) (i : EntryNo) (e : Entry) : (s.setEntry i e).pending = s.pending := rfl

@[simp] theorem State.setFade_phase (s : State) (i : FadeNo) (f : FadeSlot) : (s.setFade i f).phase = s.phase := rfl
@[simp] theorem State.setFade_profileDefaults (s : State) (i : FadeNo) (f : FadeSlot) : (s.setFade i f).profileDefaults = s.profileDefaults := rfl
@[simp] theorem State.setFade_profilePartial (s : State) (i : FadeNo) (f : FadeSlot) : (s.setFade i f).profilePartial = s.profilePartial := rfl
@[simp] theorem State.setFade_refTime (s : State) (i : FadeNo) (f : FadeSlot) : (s.setFade i f).refTime = s.refTime := rfl
@[simp] theorem State.setFade_sceneTime (s : State) (i : FadeNo) (f : FadeSlot) : (s.setFade i f).sceneTime = s.sceneTime := rfl
@[simp] theorem State.setFade_latch (s : State) (i : FadeNo) (f : FadeSlot) : (s.setFade i f).latch = s.latch := rfl
@[simp] theorem State.setFade_units (s : State) (i : FadeNo) (f : FadeSlot) : (s.setFade i f).units = s.units := rfl
@[simp] theorem State.setFade_pointer (s : State) (i : FadeNo) (f : FadeSlot) : (s.setFade i f).pointer = s.pointer := rfl
@[simp] theorem State.setFade_walk (s : State) (i : FadeNo) (f : FadeSlot) : (s.setFade i f).walk = s.walk := rfl
@[simp] theorem State.setFade_writes (s : State) (i : FadeNo) (f : FadeSlot) : (s.setFade i f).writes = s.writes := rfl
@[simp] theorem State.setFade_spentIntervals (s : State) (i : FadeNo) (f : FadeSlot) : (s.setFade i f).spentIntervals = s.spentIntervals := rfl
@[simp] theorem State.setFade_entries (s : State) (i : FadeNo) (f : FadeSlot) : (s.setFade i f).entries = s.entries := rfl
@[simp] theorem State.setFade_spentList (s : State) (i : FadeNo) (f : FadeSlot) : (s.setFade i f).spentList = s.spentList := rfl
@[simp] theorem State.setFade_armSet (s : State) (i : FadeNo) (f : FadeSlot) : (s.setFade i f).armSet = s.armSet := rfl
@[simp] theorem State.setFade_fades (s : State) (i : FadeNo) (f : FadeSlot) : (s.setFade i f).fades = s.fades.set i f := rfl
@[simp] theorem State.setFade_timer (s : State) (i : FadeNo) (f : FadeSlot) : (s.setFade i f).timer = s.timer := rfl
@[simp] theorem State.setFade_inFlight (s : State) (i : FadeNo) (f : FadeSlot) : (s.setFade i f).inFlight = s.inFlight := rfl
@[simp] theorem State.setFade_triggers (s : State) (i : FadeNo) (f : FadeSlot) : (s.setFade i f).triggers = s.triggers := rfl
@[simp] theorem State.setFade_cues (s : State) (i : FadeNo) (f : FadeSlot) : (s.setFade i f).cues = s.cues := rfl
@[simp] theorem State.setFade_slots (s : State) (i : FadeNo) (f : FadeSlot) : (s.setFade i f).slots = s.slots := rfl
@[simp] theorem State.setFade_strayReads (s : State) (i : FadeNo) (f : FadeSlot) : (s.setFade i f).strayReads = s.strayReads := rfl
@[simp] theorem State.setFade_grantQueue (s : State) (i : FadeNo) (f : FadeSlot) : (s.setFade i f).grantQueue = s.grantQueue := rfl
@[simp] theorem State.setFade_clips (s : State) (i : FadeNo) (f : FadeSlot) : (s.setFade i f).clips = s.clips := rfl
@[simp] theorem State.setFade_loadQueue (s : State) (i : FadeNo) (f : FadeSlot) : (s.setFade i f).loadQueue = s.loadQueue := rfl
@[simp] theorem State.setFade_copy (s : State) (i : FadeNo) (f : FadeSlot) : (s.setFade i f).copy = s.copy := rfl
@[simp] theorem State.setFade_clipMem (s : State) (i : FadeNo) (f : FadeSlot) : (s.setFade i f).clipMem = s.clipMem := rfl
@[simp] theorem State.setFade_powerOns (s : State) (i : FadeNo) (f : FadeSlot) : (s.setFade i f).powerOns = s.powerOns := rfl
@[simp] theorem State.setFade_ports (s : State) (i : FadeNo) (f : FadeSlot) : (s.setFade i f).ports = s.ports := rfl
@[simp] theorem State.setFade_nextTag (s : State) (i : FadeNo) (f : FadeSlot) : (s.setFade i f).nextTag = s.nextTag := rfl
@[simp] theorem State.setFade_sent (s : State) (i : FadeNo) (f : FadeSlot) : (s.setFade i f).sent = s.sent := rfl
@[simp] theorem State.setFade_pending (s : State) (i : FadeNo) (f : FadeSlot) : (s.setFade i f).pending = s.pending := rfl

@[simp] theorem State.setTrigger_phase (s : State) (t : Trigger) (r : TriggerRec) : (s.setTrigger t r).phase = s.phase := rfl
@[simp] theorem State.setTrigger_profileDefaults (s : State) (t : Trigger) (r : TriggerRec) : (s.setTrigger t r).profileDefaults = s.profileDefaults := rfl
@[simp] theorem State.setTrigger_profilePartial (s : State) (t : Trigger) (r : TriggerRec) : (s.setTrigger t r).profilePartial = s.profilePartial := rfl
@[simp] theorem State.setTrigger_refTime (s : State) (t : Trigger) (r : TriggerRec) : (s.setTrigger t r).refTime = s.refTime := rfl
@[simp] theorem State.setTrigger_sceneTime (s : State) (t : Trigger) (r : TriggerRec) : (s.setTrigger t r).sceneTime = s.sceneTime := rfl
@[simp] theorem State.setTrigger_latch (s : State) (t : Trigger) (r : TriggerRec) : (s.setTrigger t r).latch = s.latch := rfl
@[simp] theorem State.setTrigger_units (s : State) (t : Trigger) (r : TriggerRec) : (s.setTrigger t r).units = s.units := rfl
@[simp] theorem State.setTrigger_pointer (s : State) (t : Trigger) (r : TriggerRec) : (s.setTrigger t r).pointer = s.pointer := rfl
@[simp] theorem State.setTrigger_walk (s : State) (t : Trigger) (r : TriggerRec) : (s.setTrigger t r).walk = s.walk := rfl
@[simp] theorem State.setTrigger_writes (s : State) (t : Trigger) (r : TriggerRec) : (s.setTrigger t r).writes = s.writes := rfl
@[simp] theorem State.setTrigger_spentIntervals (s : State) (t : Trigger) (r : TriggerRec) : (s.setTrigger t r).spentIntervals = s.spentIntervals := rfl
@[simp] theorem State.setTrigger_entries (s : State) (t : Trigger) (r : TriggerRec) : (s.setTrigger t r).entries = s.entries := rfl
@[simp] theorem State.setTrigger_spentList (s : State) (t : Trigger) (r : TriggerRec) : (s.setTrigger t r).spentList = s.spentList := rfl
@[simp] theorem State.setTrigger_armSet (s : State) (t : Trigger) (r : TriggerRec) : (s.setTrigger t r).armSet = s.armSet := rfl
@[simp] theorem State.setTrigger_fades (s : State) (t : Trigger) (r : TriggerRec) : (s.setTrigger t r).fades = s.fades := rfl
@[simp] theorem State.setTrigger_timer (s : State) (t : Trigger) (r : TriggerRec) : (s.setTrigger t r).timer = s.timer := rfl
@[simp] theorem State.setTrigger_inFlight (s : State) (t : Trigger) (r : TriggerRec) : (s.setTrigger t r).inFlight = s.inFlight := rfl
@[simp] theorem State.setTrigger_triggers (s : State) (t : Trigger) (r : TriggerRec) : (s.setTrigger t r).triggers = s.triggers.set t r := rfl
@[simp] theorem State.setTrigger_cues (s : State) (t : Trigger) (r : TriggerRec) : (s.setTrigger t r).cues = s.cues := rfl
@[simp] theorem State.setTrigger_slots (s : State) (t : Trigger) (r : TriggerRec) : (s.setTrigger t r).slots = s.slots := rfl
@[simp] theorem State.setTrigger_strayReads (s : State) (t : Trigger) (r : TriggerRec) : (s.setTrigger t r).strayReads = s.strayReads := rfl
@[simp] theorem State.setTrigger_grantQueue (s : State) (t : Trigger) (r : TriggerRec) : (s.setTrigger t r).grantQueue = s.grantQueue := rfl
@[simp] theorem State.setTrigger_clips (s : State) (t : Trigger) (r : TriggerRec) : (s.setTrigger t r).clips = s.clips := rfl
@[simp] theorem State.setTrigger_loadQueue (s : State) (t : Trigger) (r : TriggerRec) : (s.setTrigger t r).loadQueue = s.loadQueue := rfl
@[simp] theorem State.setTrigger_copy (s : State) (t : Trigger) (r : TriggerRec) : (s.setTrigger t r).copy = s.copy := rfl
@[simp] theorem State.setTrigger_clipMem (s : State) (t : Trigger) (r : TriggerRec) : (s.setTrigger t r).clipMem = s.clipMem := rfl
@[simp] theorem State.setTrigger_powerOns (s : State) (t : Trigger) (r : TriggerRec) : (s.setTrigger t r).powerOns = s.powerOns := rfl
@[simp] theorem State.setTrigger_ports (s : State) (t : Trigger) (r : TriggerRec) : (s.setTrigger t r).ports = s.ports := rfl
@[simp] theorem State.setTrigger_nextTag (s : State) (t : Trigger) (r : TriggerRec) : (s.setTrigger t r).nextTag = s.nextTag := rfl
@[simp] theorem State.setTrigger_sent (s : State) (t : Trigger) (r : TriggerRec) : (s.setTrigger t r).sent = s.sent := rfl
@[simp] theorem State.setTrigger_pending (s : State) (t : Trigger) (r : TriggerRec) : (s.setTrigger t r).pending = s.pending := rfl

@[simp] theorem State.setCue_phase (s : State) (q : CueLine) (c : CueState) : (s.setCue q c).phase = s.phase := rfl
@[simp] theorem State.setCue_profileDefaults (s : State) (q : CueLine) (c : CueState) : (s.setCue q c).profileDefaults = s.profileDefaults := rfl
@[simp] theorem State.setCue_profilePartial (s : State) (q : CueLine) (c : CueState) : (s.setCue q c).profilePartial = s.profilePartial := rfl
@[simp] theorem State.setCue_refTime (s : State) (q : CueLine) (c : CueState) : (s.setCue q c).refTime = s.refTime := rfl
@[simp] theorem State.setCue_sceneTime (s : State) (q : CueLine) (c : CueState) : (s.setCue q c).sceneTime = s.sceneTime := rfl
@[simp] theorem State.setCue_latch (s : State) (q : CueLine) (c : CueState) : (s.setCue q c).latch = s.latch := rfl
@[simp] theorem State.setCue_units (s : State) (q : CueLine) (c : CueState) : (s.setCue q c).units = s.units := rfl
@[simp] theorem State.setCue_pointer (s : State) (q : CueLine) (c : CueState) : (s.setCue q c).pointer = s.pointer := rfl
@[simp] theorem State.setCue_walk (s : State) (q : CueLine) (c : CueState) : (s.setCue q c).walk = s.walk := rfl
@[simp] theorem State.setCue_writes (s : State) (q : CueLine) (c : CueState) : (s.setCue q c).writes = s.writes := rfl
@[simp] theorem State.setCue_spentIntervals (s : State) (q : CueLine) (c : CueState) : (s.setCue q c).spentIntervals = s.spentIntervals := rfl
@[simp] theorem State.setCue_entries (s : State) (q : CueLine) (c : CueState) : (s.setCue q c).entries = s.entries := rfl
@[simp] theorem State.setCue_spentList (s : State) (q : CueLine) (c : CueState) : (s.setCue q c).spentList = s.spentList := rfl
@[simp] theorem State.setCue_armSet (s : State) (q : CueLine) (c : CueState) : (s.setCue q c).armSet = s.armSet := rfl
@[simp] theorem State.setCue_fades (s : State) (q : CueLine) (c : CueState) : (s.setCue q c).fades = s.fades := rfl
@[simp] theorem State.setCue_timer (s : State) (q : CueLine) (c : CueState) : (s.setCue q c).timer = s.timer := rfl
@[simp] theorem State.setCue_inFlight (s : State) (q : CueLine) (c : CueState) : (s.setCue q c).inFlight = s.inFlight := rfl
@[simp] theorem State.setCue_triggers (s : State) (q : CueLine) (c : CueState) : (s.setCue q c).triggers = s.triggers := rfl
@[simp] theorem State.setCue_cues (s : State) (q : CueLine) (c : CueState) : (s.setCue q c).cues = s.cues.set q c := rfl
@[simp] theorem State.setCue_slots (s : State) (q : CueLine) (c : CueState) : (s.setCue q c).slots = s.slots := rfl
@[simp] theorem State.setCue_strayReads (s : State) (q : CueLine) (c : CueState) : (s.setCue q c).strayReads = s.strayReads := rfl
@[simp] theorem State.setCue_grantQueue (s : State) (q : CueLine) (c : CueState) : (s.setCue q c).grantQueue = s.grantQueue := rfl
@[simp] theorem State.setCue_clips (s : State) (q : CueLine) (c : CueState) : (s.setCue q c).clips = s.clips := rfl
@[simp] theorem State.setCue_loadQueue (s : State) (q : CueLine) (c : CueState) : (s.setCue q c).loadQueue = s.loadQueue := rfl
@[simp] theorem State.setCue_copy (s : State) (q : CueLine) (c : CueState) : (s.setCue q c).copy = s.copy := rfl
@[simp] theorem State.setCue_clipMem (s : State) (q : CueLine) (c : CueState) : (s.setCue q c).clipMem = s.clipMem := rfl
@[simp] theorem State.setCue_powerOns (s : State) (q : CueLine) (c : CueState) : (s.setCue q c).powerOns = s.powerOns := rfl
@[simp] theorem State.setCue_ports (s : State) (q : CueLine) (c : CueState) : (s.setCue q c).ports = s.ports := rfl
@[simp] theorem State.setCue_nextTag (s : State) (q : CueLine) (c : CueState) : (s.setCue q c).nextTag = s.nextTag := rfl
@[simp] theorem State.setCue_sent (s : State) (q : CueLine) (c : CueState) : (s.setCue q c).sent = s.sent := rfl
@[simp] theorem State.setCue_pending (s : State) (q : CueLine) (c : CueState) : (s.setCue q c).pending = s.pending := rfl

@[simp] theorem State.setSlot_phase (s : State) (n : SlotNo) (x : StreamSlot) : (s.setSlot n x).phase = s.phase := rfl
@[simp] theorem State.setSlot_profileDefaults (s : State) (n : SlotNo) (x : StreamSlot) : (s.setSlot n x).profileDefaults = s.profileDefaults := rfl
@[simp] theorem State.setSlot_profilePartial (s : State) (n : SlotNo) (x : StreamSlot) : (s.setSlot n x).profilePartial = s.profilePartial := rfl
@[simp] theorem State.setSlot_refTime (s : State) (n : SlotNo) (x : StreamSlot) : (s.setSlot n x).refTime = s.refTime := rfl
@[simp] theorem State.setSlot_sceneTime (s : State) (n : SlotNo) (x : StreamSlot) : (s.setSlot n x).sceneTime = s.sceneTime := rfl
@[simp] theorem State.setSlot_latch (s : State) (n : SlotNo) (x : StreamSlot) : (s.setSlot n x).latch = s.latch := rfl
@[simp] theorem State.setSlot_units (s : State) (n : SlotNo) (x : StreamSlot) : (s.setSlot n x).units = s.units := rfl
@[simp] theorem State.setSlot_pointer (s : State) (n : SlotNo) (x : StreamSlot) : (s.setSlot n x).pointer = s.pointer := rfl
@[simp] theorem State.setSlot_walk (s : State) (n : SlotNo) (x : StreamSlot) : (s.setSlot n x).walk = s.walk := rfl
@[simp] theorem State.setSlot_writes (s : State) (n : SlotNo) (x : StreamSlot) : (s.setSlot n x).writes = s.writes := rfl
@[simp] theorem State.setSlot_spentIntervals (s : State) (n : SlotNo) (x : StreamSlot) : (s.setSlot n x).spentIntervals = s.spentIntervals := rfl
@[simp] theorem State.setSlot_entries (s : State) (n : SlotNo) (x : StreamSlot) : (s.setSlot n x).entries = s.entries := rfl
@[simp] theorem State.setSlot_spentList (s : State) (n : SlotNo) (x : StreamSlot) : (s.setSlot n x).spentList = s.spentList := rfl
@[simp] theorem State.setSlot_armSet (s : State) (n : SlotNo) (x : StreamSlot) : (s.setSlot n x).armSet = s.armSet := rfl
@[simp] theorem State.setSlot_fades (s : State) (n : SlotNo) (x : StreamSlot) : (s.setSlot n x).fades = s.fades := rfl
@[simp] theorem State.setSlot_timer (s : State) (n : SlotNo) (x : StreamSlot) : (s.setSlot n x).timer = s.timer := rfl
@[simp] theorem State.setSlot_inFlight (s : State) (n : SlotNo) (x : StreamSlot) : (s.setSlot n x).inFlight = s.inFlight := rfl
@[simp] theorem State.setSlot_triggers (s : State) (n : SlotNo) (x : StreamSlot) : (s.setSlot n x).triggers = s.triggers := rfl
@[simp] theorem State.setSlot_cues (s : State) (n : SlotNo) (x : StreamSlot) : (s.setSlot n x).cues = s.cues := rfl
@[simp] theorem State.setSlot_slots (s : State) (n : SlotNo) (x : StreamSlot) : (s.setSlot n x).slots = s.slots.set n x := rfl
@[simp] theorem State.setSlot_strayReads (s : State) (n : SlotNo) (x : StreamSlot) : (s.setSlot n x).strayReads = s.strayReads := rfl
@[simp] theorem State.setSlot_grantQueue (s : State) (n : SlotNo) (x : StreamSlot) : (s.setSlot n x).grantQueue = s.grantQueue := rfl
@[simp] theorem State.setSlot_clips (s : State) (n : SlotNo) (x : StreamSlot) : (s.setSlot n x).clips = s.clips := rfl
@[simp] theorem State.setSlot_loadQueue (s : State) (n : SlotNo) (x : StreamSlot) : (s.setSlot n x).loadQueue = s.loadQueue := rfl
@[simp] theorem State.setSlot_copy (s : State) (n : SlotNo) (x : StreamSlot) : (s.setSlot n x).copy = s.copy := rfl
@[simp] theorem State.setSlot_clipMem (s : State) (n : SlotNo) (x : StreamSlot) : (s.setSlot n x).clipMem = s.clipMem := rfl
@[simp] theorem State.setSlot_powerOns (s : State) (n : SlotNo) (x : StreamSlot) : (s.setSlot n x).powerOns = s.powerOns := rfl
@[simp] theorem State.setSlot_ports (s : State) (n : SlotNo) (x : StreamSlot) : (s.setSlot n x).ports = s.ports := rfl
@[simp] theorem State.setSlot_nextTag (s : State) (n : SlotNo) (x : StreamSlot) : (s.setSlot n x).nextTag = s.nextTag := rfl
@[simp] theorem State.setSlot_sent (s : State) (n : SlotNo) (x : StreamSlot) : (s.setSlot n x).sent = s.sent := rfl
@[simp] theorem State.setSlot_pending (s : State) (n : SlotNo) (x : StreamSlot) : (s.setSlot n x).pending = s.pending := rfl

@[simp] theorem State.setClip_phase (s : State) (i : ClipNo) (x : ClipSlot) : (s.setClip i x).phase = s.phase := rfl
@[simp] theorem State.setClip_profileDefaults (s : State) (i : ClipNo) (x : ClipSlot) : (s.setClip i x).profileDefaults = s.profileDefaults := rfl
@[simp] theorem State.setClip_profilePartial (s : State) (i : ClipNo) (x : ClipSlot) : (s.setClip i x).profilePartial = s.profilePartial := rfl
@[simp] theorem State.setClip_refTime (s : State) (i : ClipNo) (x : ClipSlot) : (s.setClip i x).refTime = s.refTime := rfl
@[simp] theorem State.setClip_sceneTime (s : State) (i : ClipNo) (x : ClipSlot) : (s.setClip i x).sceneTime = s.sceneTime := rfl
@[simp] theorem State.setClip_latch (s : State) (i : ClipNo) (x : ClipSlot) : (s.setClip i x).latch = s.latch := rfl
@[simp] theorem State.setClip_units (s : State) (i : ClipNo) (x : ClipSlot) : (s.setClip i x).units = s.units := rfl
@[simp] theorem State.setClip_pointer (s : State) (i : ClipNo) (x : ClipSlot) : (s.setClip i x).pointer = s.pointer := rfl
@[simp] theorem State.setClip_walk (s : State) (i : ClipNo) (x : ClipSlot) : (s.setClip i x).walk = s.walk := rfl
@[simp] theorem State.setClip_writes (s : State) (i : ClipNo) (x : ClipSlot) : (s.setClip i x).writes = s.writes := rfl
@[simp] theorem State.setClip_spentIntervals (s : State) (i : ClipNo) (x : ClipSlot) : (s.setClip i x).spentIntervals = s.spentIntervals := rfl
@[simp] theorem State.setClip_entries (s : State) (i : ClipNo) (x : ClipSlot) : (s.setClip i x).entries = s.entries := rfl
@[simp] theorem State.setClip_spentList (s : State) (i : ClipNo) (x : ClipSlot) : (s.setClip i x).spentList = s.spentList := rfl
@[simp] theorem State.setClip_armSet (s : State) (i : ClipNo) (x : ClipSlot) : (s.setClip i x).armSet = s.armSet := rfl
@[simp] theorem State.setClip_fades (s : State) (i : ClipNo) (x : ClipSlot) : (s.setClip i x).fades = s.fades := rfl
@[simp] theorem State.setClip_timer (s : State) (i : ClipNo) (x : ClipSlot) : (s.setClip i x).timer = s.timer := rfl
@[simp] theorem State.setClip_inFlight (s : State) (i : ClipNo) (x : ClipSlot) : (s.setClip i x).inFlight = s.inFlight := rfl
@[simp] theorem State.setClip_triggers (s : State) (i : ClipNo) (x : ClipSlot) : (s.setClip i x).triggers = s.triggers := rfl
@[simp] theorem State.setClip_cues (s : State) (i : ClipNo) (x : ClipSlot) : (s.setClip i x).cues = s.cues := rfl
@[simp] theorem State.setClip_slots (s : State) (i : ClipNo) (x : ClipSlot) : (s.setClip i x).slots = s.slots := rfl
@[simp] theorem State.setClip_strayReads (s : State) (i : ClipNo) (x : ClipSlot) : (s.setClip i x).strayReads = s.strayReads := rfl
@[simp] theorem State.setClip_grantQueue (s : State) (i : ClipNo) (x : ClipSlot) : (s.setClip i x).grantQueue = s.grantQueue := rfl
@[simp] theorem State.setClip_clips (s : State) (i : ClipNo) (x : ClipSlot) : (s.setClip i x).clips = s.clips.set i x := rfl
@[simp] theorem State.setClip_loadQueue (s : State) (i : ClipNo) (x : ClipSlot) : (s.setClip i x).loadQueue = s.loadQueue := rfl
@[simp] theorem State.setClip_copy (s : State) (i : ClipNo) (x : ClipSlot) : (s.setClip i x).copy = s.copy := rfl
@[simp] theorem State.setClip_clipMem (s : State) (i : ClipNo) (x : ClipSlot) : (s.setClip i x).clipMem = s.clipMem := rfl
@[simp] theorem State.setClip_powerOns (s : State) (i : ClipNo) (x : ClipSlot) : (s.setClip i x).powerOns = s.powerOns := rfl
@[simp] theorem State.setClip_ports (s : State) (i : ClipNo) (x : ClipSlot) : (s.setClip i x).ports = s.ports := rfl
@[simp] theorem State.setClip_nextTag (s : State) (i : ClipNo) (x : ClipSlot) : (s.setClip i x).nextTag = s.nextTag := rfl
@[simp] theorem State.setClip_sent (s : State) (i : ClipNo) (x : ClipSlot) : (s.setClip i x).sent = s.sent := rfl
@[simp] theorem State.setClip_pending (s : State) (i : ClipNo) (x : ClipSlot) : (s.setClip i x).pending = s.pending := rfl

@[simp] theorem State.setPort_phase (s : State) (p : Port) (r : PortRec) : (s.setPort p r).phase = s.phase := rfl
@[simp] theorem State.setPort_profileDefaults (s : State) (p : Port) (r : PortRec) : (s.setPort p r).profileDefaults = s.profileDefaults := rfl
@[simp] theorem State.setPort_profilePartial (s : State) (p : Port) (r : PortRec) : (s.setPort p r).profilePartial = s.profilePartial := rfl
@[simp] theorem State.setPort_refTime (s : State) (p : Port) (r : PortRec) : (s.setPort p r).refTime = s.refTime := rfl
@[simp] theorem State.setPort_sceneTime (s : State) (p : Port) (r : PortRec) : (s.setPort p r).sceneTime = s.sceneTime := rfl
@[simp] theorem State.setPort_latch (s : State) (p : Port) (r : PortRec) : (s.setPort p r).latch = s.latch := rfl
@[simp] theorem State.setPort_units (s : State) (p : Port) (r : PortRec) : (s.setPort p r).units = s.units := rfl
@[simp] theorem State.setPort_pointer (s : State) (p : Port) (r : PortRec) : (s.setPort p r).pointer = s.pointer := rfl
@[simp] theorem State.setPort_walk (s : State) (p : Port) (r : PortRec) : (s.setPort p r).walk = s.walk := rfl
@[simp] theorem State.setPort_writes (s : State) (p : Port) (r : PortRec) : (s.setPort p r).writes = s.writes := rfl
@[simp] theorem State.setPort_spentIntervals (s : State) (p : Port) (r : PortRec) : (s.setPort p r).spentIntervals = s.spentIntervals := rfl
@[simp] theorem State.setPort_entries (s : State) (p : Port) (r : PortRec) : (s.setPort p r).entries = s.entries := rfl
@[simp] theorem State.setPort_spentList (s : State) (p : Port) (r : PortRec) : (s.setPort p r).spentList = s.spentList := rfl
@[simp] theorem State.setPort_armSet (s : State) (p : Port) (r : PortRec) : (s.setPort p r).armSet = s.armSet := rfl
@[simp] theorem State.setPort_fades (s : State) (p : Port) (r : PortRec) : (s.setPort p r).fades = s.fades := rfl
@[simp] theorem State.setPort_timer (s : State) (p : Port) (r : PortRec) : (s.setPort p r).timer = s.timer := rfl
@[simp] theorem State.setPort_inFlight (s : State) (p : Port) (r : PortRec) : (s.setPort p r).inFlight = s.inFlight := rfl
@[simp] theorem State.setPort_triggers (s : State) (p : Port) (r : PortRec) : (s.setPort p r).triggers = s.triggers := rfl
@[simp] theorem State.setPort_cues (s : State) (p : Port) (r : PortRec) : (s.setPort p r).cues = s.cues := rfl
@[simp] theorem State.setPort_slots (s : State) (p : Port) (r : PortRec) : (s.setPort p r).slots = s.slots := rfl
@[simp] theorem State.setPort_strayReads (s : State) (p : Port) (r : PortRec) : (s.setPort p r).strayReads = s.strayReads := rfl
@[simp] theorem State.setPort_grantQueue (s : State) (p : Port) (r : PortRec) : (s.setPort p r).grantQueue = s.grantQueue := rfl
@[simp] theorem State.setPort_clips (s : State) (p : Port) (r : PortRec) : (s.setPort p r).clips = s.clips := rfl
@[simp] theorem State.setPort_loadQueue (s : State) (p : Port) (r : PortRec) : (s.setPort p r).loadQueue = s.loadQueue := rfl
@[simp] theorem State.setPort_copy (s : State) (p : Port) (r : PortRec) : (s.setPort p r).copy = s.copy := rfl
@[simp] theorem State.setPort_clipMem (s : State) (p : Port) (r : PortRec) : (s.setPort p r).clipMem = s.clipMem := rfl
@[simp] theorem State.setPort_powerOns (s : State) (p : Port) (r : PortRec) : (s.setPort p r).powerOns = s.powerOns := rfl
@[simp] theorem State.setPort_ports (s : State) (p : Port) (r : PortRec) : (s.setPort p r).ports = s.ports.set p r := rfl
@[simp] theorem State.setPort_nextTag (s : State) (p : Port) (r : PortRec) : (s.setPort p r).nextTag = s.nextTag := rfl
@[simp] theorem State.setPort_sent (s : State) (p : Port) (r : PortRec) : (s.setPort p r).sent = s.sent := rfl
@[simp] theorem State.setPort_pending (s : State) (p : Port) (r : PortRec) : (s.setPort p r).pending = s.pending := rfl

@[simp] theorem State.post_phase (s : State) (m : Message) : (s.post m).phase = s.phase := rfl
@[simp] theorem State.post_profileDefaults (s : State) (m : Message) : (s.post m).profileDefaults = s.profileDefaults := rfl
@[simp] theorem State.post_profilePartial (s : State) (m : Message) : (s.post m).profilePartial = s.profilePartial := rfl
@[simp] theorem State.post_refTime (s : State) (m : Message) : (s.post m).refTime = s.refTime := rfl
@[simp] theorem State.post_sceneTime (s : State) (m : Message) : (s.post m).sceneTime = s.sceneTime := rfl
@[simp] theorem State.post_latch (s : State) (m : Message) : (s.post m).latch = s.latch := rfl
@[simp] theorem State.post_units (s : State) (m : Message) : (s.post m).units = s.units := rfl
@[simp] theorem State.post_pointer (s : State) (m : Message) : (s.post m).pointer = s.pointer := rfl
@[simp] theorem State.post_walk (s : State) (m : Message) : (s.post m).walk = s.walk := rfl
@[simp] theorem State.post_writes (s : State) (m : Message) : (s.post m).writes = s.writes := rfl
@[simp] theorem State.post_spentIntervals (s : State) (m : Message) : (s.post m).spentIntervals = s.spentIntervals := rfl
@[simp] theorem State.post_entries (s : State) (m : Message) : (s.post m).entries = s.entries := rfl
@[simp] theorem State.post_spentList (s : State) (m : Message) : (s.post m).spentList = s.spentList := rfl
@[simp] theorem State.post_armSet (s : State) (m : Message) : (s.post m).armSet = s.armSet := rfl
@[simp] theorem State.post_fades (s : State) (m : Message) : (s.post m).fades = s.fades := rfl
@[simp] theorem State.post_timer (s : State) (m : Message) : (s.post m).timer = s.timer := rfl
@[simp] theorem State.post_inFlight (s : State) (m : Message) : (s.post m).inFlight = s.inFlight ++ [m] := rfl
@[simp] theorem State.post_triggers (s : State) (m : Message) : (s.post m).triggers = s.triggers := rfl
@[simp] theorem State.post_cues (s : State) (m : Message) : (s.post m).cues = s.cues := rfl
@[simp] theorem State.post_slots (s : State) (m : Message) : (s.post m).slots = s.slots := rfl
@[simp] theorem State.post_strayReads (s : State) (m : Message) : (s.post m).strayReads = s.strayReads := rfl
@[simp] theorem State.post_grantQueue (s : State) (m : Message) : (s.post m).grantQueue = s.grantQueue := rfl
@[simp] theorem State.post_clips (s : State) (m : Message) : (s.post m).clips = s.clips := rfl
@[simp] theorem State.post_loadQueue (s : State) (m : Message) : (s.post m).loadQueue = s.loadQueue := rfl
@[simp] theorem State.post_copy (s : State) (m : Message) : (s.post m).copy = s.copy := rfl
@[simp] theorem State.post_clipMem (s : State) (m : Message) : (s.post m).clipMem = s.clipMem := rfl
@[simp] theorem State.post_powerOns (s : State) (m : Message) : (s.post m).powerOns = s.powerOns := rfl
@[simp] theorem State.post_ports (s : State) (m : Message) : (s.post m).ports = s.ports := rfl
@[simp] theorem State.post_nextTag (s : State) (m : Message) : (s.post m).nextTag = s.nextTag := rfl
@[simp] theorem State.post_sent (s : State) (m : Message) : (s.post m).sent = s.sent := rfl
@[simp] theorem State.post_pending (s : State) (m : Message) : (s.post m).pending = s.pending := rfl

@[simp] theorem State.withdraw_phase (s : State) (f : Expiry → Bool) : (s.withdraw f).phase = s.phase := rfl
@[simp] theorem State.withdraw_profileDefaults (s : State) (f : Expiry → Bool) : (s.withdraw f).profileDefaults = s.profileDefaults := rfl
@[simp] theorem State.withdraw_profilePartial (s : State) (f : Expiry → Bool) : (s.withdraw f).profilePartial = s.profilePartial := rfl
@[simp] theorem State.withdraw_refTime (s : State) (f : Expiry → Bool) : (s.withdraw f).refTime = s.refTime := rfl
@[simp] theorem State.withdraw_sceneTime (s : State) (f : Expiry → Bool) : (s.withdraw f).sceneTime = s.sceneTime := rfl
@[simp] theorem State.withdraw_latch (s : State) (f : Expiry → Bool) : (s.withdraw f).latch = s.latch := rfl
@[simp] theorem State.withdraw_units (s : State) (f : Expiry → Bool) : (s.withdraw f).units = s.units := rfl
@[simp] theorem State.withdraw_pointer (s : State) (f : Expiry → Bool) : (s.withdraw f).pointer = s.pointer := rfl
@[simp] theorem State.withdraw_walk (s : State) (f : Expiry → Bool) : (s.withdraw f).walk = s.walk := rfl
@[simp] theorem State.withdraw_writes (s : State) (f : Expiry → Bool) : (s.withdraw f).writes = s.writes := rfl
@[simp] theorem State.withdraw_spentIntervals (s : State) (f : Expiry → Bool) : (s.withdraw f).spentIntervals = s.spentIntervals := rfl
@[simp] theorem State.withdraw_entries (s : State) (f : Expiry → Bool) : (s.withdraw f).entries = s.entries := rfl
@[simp] theorem State.withdraw_spentList (s : State) (f : Expiry → Bool) : (s.withdraw f).spentList = s.spentList := rfl
@[simp] theorem State.withdraw_armSet (s : State) (f : Expiry → Bool) : (s.withdraw f).armSet = s.armSet := rfl
@[simp] theorem State.withdraw_fades (s : State) (f : Expiry → Bool) : (s.withdraw f).fades = s.fades := rfl
@[simp] theorem State.withdraw_timer (s : State) (f : Expiry → Bool) : (s.withdraw f).timer = s.timer.filter fun x => !f x.kind := rfl
@[simp] theorem State.withdraw_inFlight (s : State) (f : Expiry → Bool) : (s.withdraw f).inFlight = s.inFlight := rfl
@[simp] theorem State.withdraw_triggers (s : State) (f : Expiry → Bool) : (s.withdraw f).triggers = s.triggers := rfl
@[simp] theorem State.withdraw_cues (s : State) (f : Expiry → Bool) : (s.withdraw f).cues = s.cues := rfl
@[simp] theorem State.withdraw_slots (s : State) (f : Expiry → Bool) : (s.withdraw f).slots = s.slots := rfl
@[simp] theorem State.withdraw_strayReads (s : State) (f : Expiry → Bool) : (s.withdraw f).strayReads = s.strayReads := rfl
@[simp] theorem State.withdraw_grantQueue (s : State) (f : Expiry → Bool) : (s.withdraw f).grantQueue = s.grantQueue := rfl
@[simp] theorem State.withdraw_clips (s : State) (f : Expiry → Bool) : (s.withdraw f).clips = s.clips := rfl
@[simp] theorem State.withdraw_loadQueue (s : State) (f : Expiry → Bool) : (s.withdraw f).loadQueue = s.loadQueue := rfl
@[simp] theorem State.withdraw_copy (s : State) (f : Expiry → Bool) : (s.withdraw f).copy = s.copy := rfl
@[simp] theorem State.withdraw_clipMem (s : State) (f : Expiry → Bool) : (s.withdraw f).clipMem = s.clipMem := rfl
@[simp] theorem State.withdraw_powerOns (s : State) (f : Expiry → Bool) : (s.withdraw f).powerOns = s.powerOns := rfl
@[simp] theorem State.withdraw_ports (s : State) (f : Expiry → Bool) : (s.withdraw f).ports = s.ports := rfl
@[simp] theorem State.withdraw_nextTag (s : State) (f : Expiry → Bool) : (s.withdraw f).nextTag = s.nextTag := rfl
@[simp] theorem State.withdraw_sent (s : State) (f : Expiry → Bool) : (s.withdraw f).sent = s.sent := rfl
@[simp] theorem State.withdraw_pending (s : State) (f : Expiry → Bool) : (s.withdraw f).pending = s.pending := rfl

@[simp] theorem State.bumpTag_phase (s : State) : s.bumpTag.phase = s.phase := rfl
@[simp] theorem State.bumpTag_profileDefaults (s : State) : s.bumpTag.profileDefaults = s.profileDefaults := rfl
@[simp] theorem State.bumpTag_profilePartial (s : State) : s.bumpTag.profilePartial = s.profilePartial := rfl
@[simp] theorem State.bumpTag_refTime (s : State) : s.bumpTag.refTime = s.refTime := rfl
@[simp] theorem State.bumpTag_sceneTime (s : State) : s.bumpTag.sceneTime = s.sceneTime := rfl
@[simp] theorem State.bumpTag_latch (s : State) : s.bumpTag.latch = s.latch := rfl
@[simp] theorem State.bumpTag_units (s : State) : s.bumpTag.units = s.units := rfl
@[simp] theorem State.bumpTag_pointer (s : State) : s.bumpTag.pointer = s.pointer := rfl
@[simp] theorem State.bumpTag_walk (s : State) : s.bumpTag.walk = s.walk := rfl
@[simp] theorem State.bumpTag_writes (s : State) : s.bumpTag.writes = s.writes := rfl
@[simp] theorem State.bumpTag_spentIntervals (s : State) : s.bumpTag.spentIntervals = s.spentIntervals := rfl
@[simp] theorem State.bumpTag_entries (s : State) : s.bumpTag.entries = s.entries := rfl
@[simp] theorem State.bumpTag_spentList (s : State) : s.bumpTag.spentList = s.spentList := rfl
@[simp] theorem State.bumpTag_armSet (s : State) : s.bumpTag.armSet = s.armSet := rfl
@[simp] theorem State.bumpTag_fades (s : State) : s.bumpTag.fades = s.fades := rfl
@[simp] theorem State.bumpTag_timer (s : State) : s.bumpTag.timer = s.timer := rfl
@[simp] theorem State.bumpTag_inFlight (s : State) : s.bumpTag.inFlight = s.inFlight := rfl
@[simp] theorem State.bumpTag_triggers (s : State) : s.bumpTag.triggers = s.triggers := rfl
@[simp] theorem State.bumpTag_cues (s : State) : s.bumpTag.cues = s.cues := rfl
@[simp] theorem State.bumpTag_slots (s : State) : s.bumpTag.slots = s.slots := rfl
@[simp] theorem State.bumpTag_strayReads (s : State) : s.bumpTag.strayReads = s.strayReads := rfl
@[simp] theorem State.bumpTag_grantQueue (s : State) : s.bumpTag.grantQueue = s.grantQueue := rfl
@[simp] theorem State.bumpTag_clips (s : State) : s.bumpTag.clips = s.clips := rfl
@[simp] theorem State.bumpTag_loadQueue (s : State) : s.bumpTag.loadQueue = s.loadQueue := rfl
@[simp] theorem State.bumpTag_copy (s : State) : s.bumpTag.copy = s.copy := rfl
@[simp] theorem State.bumpTag_clipMem (s : State) : s.bumpTag.clipMem = s.clipMem := rfl
@[simp] theorem State.bumpTag_powerOns (s : State) : s.bumpTag.powerOns = s.powerOns := rfl
@[simp] theorem State.bumpTag_ports (s : State) : s.bumpTag.ports = s.ports := rfl
@[simp] theorem State.bumpTag_nextTag (s : State) : s.bumpTag.nextTag = s.nextTag + 1 := rfl
@[simp] theorem State.bumpTag_sent (s : State) : s.bumpTag.sent = s.sent := rfl
@[simp] theorem State.bumpTag_pending (s : State) : s.bumpTag.pending = s.pending := rfl

@[simp] theorem State.send_phase (s : State) (x : Sent) : (s.send x).phase = s.phase := rfl
@[simp] theorem State.send_profileDefaults (s : State) (x : Sent) : (s.send x).profileDefaults = s.profileDefaults := rfl
@[simp] theorem State.send_profilePartial (s : State) (x : Sent) : (s.send x).profilePartial = s.profilePartial := rfl
@[simp] theorem State.send_refTime (s : State) (x : Sent) : (s.send x).refTime = s.refTime := rfl
@[simp] theorem State.send_sceneTime (s : State) (x : Sent) : (s.send x).sceneTime = s.sceneTime := rfl
@[simp] theorem State.send_latch (s : State) (x : Sent) : (s.send x).latch = s.latch := rfl
@[simp] theorem State.send_units (s : State) (x : Sent) : (s.send x).units = s.units := rfl
@[simp] theorem State.send_pointer (s : State) (x : Sent) : (s.send x).pointer = s.pointer := rfl
@[simp] theorem State.send_walk (s : State) (x : Sent) : (s.send x).walk = s.walk := rfl
@[simp] theorem State.send_writes (s : State) (x : Sent) : (s.send x).writes = s.writes := rfl
@[simp] theorem State.send_spentIntervals (s : State) (x : Sent) : (s.send x).spentIntervals = s.spentIntervals := rfl
@[simp] theorem State.send_entries (s : State) (x : Sent) : (s.send x).entries = s.entries := rfl
@[simp] theorem State.send_spentList (s : State) (x : Sent) : (s.send x).spentList = s.spentList := rfl
@[simp] theorem State.send_armSet (s : State) (x : Sent) : (s.send x).armSet = s.armSet := rfl
@[simp] theorem State.send_fades (s : State) (x : Sent) : (s.send x).fades = s.fades := rfl
@[simp] theorem State.send_timer (s : State) (x : Sent) : (s.send x).timer = s.timer := rfl
@[simp] theorem State.send_inFlight (s : State) (x : Sent) : (s.send x).inFlight = s.inFlight := rfl
@[simp] theorem State.send_triggers (s : State) (x : Sent) : (s.send x).triggers = s.triggers := rfl
@[simp] theorem State.send_cues (s : State) (x : Sent) : (s.send x).cues = s.cues := rfl
@[simp] theorem State.send_slots (s : State) (x : Sent) : (s.send x).slots = s.slots := rfl
@[simp] theorem State.send_strayReads (s : State) (x : Sent) : (s.send x).strayReads = s.strayReads := rfl
@[simp] theorem State.send_grantQueue (s : State) (x : Sent) : (s.send x).grantQueue = s.grantQueue := rfl
@[simp] theorem State.send_clips (s : State) (x : Sent) : (s.send x).clips = s.clips := rfl
@[simp] theorem State.send_loadQueue (s : State) (x : Sent) : (s.send x).loadQueue = s.loadQueue := rfl
@[simp] theorem State.send_copy (s : State) (x : Sent) : (s.send x).copy = s.copy := rfl
@[simp] theorem State.send_clipMem (s : State) (x : Sent) : (s.send x).clipMem = s.clipMem := rfl
@[simp] theorem State.send_powerOns (s : State) (x : Sent) : (s.send x).powerOns = s.powerOns := rfl
@[simp] theorem State.send_ports (s : State) (x : Sent) : (s.send x).ports = s.ports := rfl
@[simp] theorem State.send_nextTag (s : State) (x : Sent) : (s.send x).nextTag = s.nextTag := rfl
@[simp] theorem State.send_sent (s : State) (x : Sent) : (s.send x).sent = s.sent ++ [x] := rfl
@[simp] theorem State.send_pending (s : State) (x : Sent) : (s.send x).pending = s.pending := rfl

@[simp] theorem State.joinQueue_phase (s : State) (h : EmitterHandle) : (s.joinQueue h).phase = s.phase := rfl
@[simp] theorem State.joinQueue_profileDefaults (s : State) (h : EmitterHandle) : (s.joinQueue h).profileDefaults = s.profileDefaults := rfl
@[simp] theorem State.joinQueue_profilePartial (s : State) (h : EmitterHandle) : (s.joinQueue h).profilePartial = s.profilePartial := rfl
@[simp] theorem State.joinQueue_refTime (s : State) (h : EmitterHandle) : (s.joinQueue h).refTime = s.refTime := rfl
@[simp] theorem State.joinQueue_sceneTime (s : State) (h : EmitterHandle) : (s.joinQueue h).sceneTime = s.sceneTime := rfl
@[simp] theorem State.joinQueue_latch (s : State) (h : EmitterHandle) : (s.joinQueue h).latch = s.latch := rfl
@[simp] theorem State.joinQueue_units (s : State) (h : EmitterHandle) : (s.joinQueue h).units = s.units := rfl
@[simp] theorem State.joinQueue_pointer (s : State) (h : EmitterHandle) : (s.joinQueue h).pointer = s.pointer := rfl
@[simp] theorem State.joinQueue_walk (s : State) (h : EmitterHandle) : (s.joinQueue h).walk = s.walk := rfl
@[simp] theorem State.joinQueue_writes (s : State) (h : EmitterHandle) : (s.joinQueue h).writes = s.writes := rfl
@[simp] theorem State.joinQueue_spentIntervals (s : State) (h : EmitterHandle) : (s.joinQueue h).spentIntervals = s.spentIntervals := rfl
@[simp] theorem State.joinQueue_entries (s : State) (h : EmitterHandle) : (s.joinQueue h).entries = s.entries := rfl
@[simp] theorem State.joinQueue_spentList (s : State) (h : EmitterHandle) : (s.joinQueue h).spentList = s.spentList := rfl
@[simp] theorem State.joinQueue_armSet (s : State) (h : EmitterHandle) : (s.joinQueue h).armSet = s.armSet := rfl
@[simp] theorem State.joinQueue_fades (s : State) (h : EmitterHandle) : (s.joinQueue h).fades = s.fades := rfl
@[simp] theorem State.joinQueue_timer (s : State) (h : EmitterHandle) : (s.joinQueue h).timer = s.timer := rfl
@[simp] theorem State.joinQueue_inFlight (s : State) (h : EmitterHandle) : (s.joinQueue h).inFlight = s.inFlight := rfl
@[simp] theorem State.joinQueue_triggers (s : State) (h : EmitterHandle) : (s.joinQueue h).triggers = s.triggers := rfl
@[simp] theorem State.joinQueue_cues (s : State) (h : EmitterHandle) : (s.joinQueue h).cues = s.cues := rfl
@[simp] theorem State.joinQueue_slots (s : State) (h : EmitterHandle) : (s.joinQueue h).slots = s.slots := rfl
@[simp] theorem State.joinQueue_strayReads (s : State) (h : EmitterHandle) : (s.joinQueue h).strayReads = s.strayReads := rfl
@[simp] theorem State.joinQueue_grantQueue (s : State) (h : EmitterHandle) : (s.joinQueue h).grantQueue = s.grantQueue ++ [h] := rfl
@[simp] theorem State.joinQueue_clips (s : State) (h : EmitterHandle) : (s.joinQueue h).clips = s.clips := rfl
@[simp] theorem State.joinQueue_loadQueue (s : State) (h : EmitterHandle) : (s.joinQueue h).loadQueue = s.loadQueue := rfl
@[simp] theorem State.joinQueue_copy (s : State) (h : EmitterHandle) : (s.joinQueue h).copy = s.copy := rfl
@[simp] theorem State.joinQueue_clipMem (s : State) (h : EmitterHandle) : (s.joinQueue h).clipMem = s.clipMem := rfl
@[simp] theorem State.joinQueue_powerOns (s : State) (h : EmitterHandle) : (s.joinQueue h).powerOns = s.powerOns := rfl
@[simp] theorem State.joinQueue_ports (s : State) (h : EmitterHandle) : (s.joinQueue h).ports = s.ports := rfl
@[simp] theorem State.joinQueue_nextTag (s : State) (h : EmitterHandle) : (s.joinQueue h).nextTag = s.nextTag := rfl
@[simp] theorem State.joinQueue_sent (s : State) (h : EmitterHandle) : (s.joinQueue h).sent = s.sent := rfl
@[simp] theorem State.joinQueue_pending (s : State) (h : EmitterHandle) : (s.joinQueue h).pending = s.pending := rfl

@[simp] theorem State.withPending_phase (s : State) (q : List Instr) : (s.withPending q).phase = s.phase := rfl
@[simp] theorem State.withPending_profileDefaults (s : State) (q : List Instr) : (s.withPending q).profileDefaults = s.profileDefaults := rfl
@[simp] theorem State.withPending_profilePartial (s : State) (q : List Instr) : (s.withPending q).profilePartial = s.profilePartial := rfl
@[simp] theorem State.withPending_refTime (s : State) (q : List Instr) : (s.withPending q).refTime = s.refTime := rfl
@[simp] theorem State.withPending_sceneTime (s : State) (q : List Instr) : (s.withPending q).sceneTime = s.sceneTime := rfl
@[simp] theorem State.withPending_latch (s : State) (q : List Instr) : (s.withPending q).latch = s.latch := rfl
@[simp] theorem State.withPending_units (s : State) (q : List Instr) : (s.withPending q).units = s.units := rfl
@[simp] theorem State.withPending_pointer (s : State) (q : List Instr) : (s.withPending q).pointer = s.pointer := rfl
@[simp] theorem State.withPending_walk (s : State) (q : List Instr) : (s.withPending q).walk = s.walk := rfl
@[simp] theorem State.withPending_writes (s : State) (q : List Instr) : (s.withPending q).writes = s.writes := rfl
@[simp] theorem State.withPending_spentIntervals (s : State) (q : List Instr) : (s.withPending q).spentIntervals = s.spentIntervals := rfl
@[simp] theorem State.withPending_entries (s : State) (q : List Instr) : (s.withPending q).entries = s.entries := rfl
@[simp] theorem State.withPending_spentList (s : State) (q : List Instr) : (s.withPending q).spentList = s.spentList := rfl
@[simp] theorem State.withPending_armSet (s : State) (q : List Instr) : (s.withPending q).armSet = s.armSet := rfl
@[simp] theorem State.withPending_fades (s : State) (q : List Instr) : (s.withPending q).fades = s.fades := rfl
@[simp] theorem State.withPending_timer (s : State) (q : List Instr) : (s.withPending q).timer = s.timer := rfl
@[simp] theorem State.withPending_inFlight (s : State) (q : List Instr) : (s.withPending q).inFlight = s.inFlight := rfl
@[simp] theorem State.withPending_triggers (s : State) (q : List Instr) : (s.withPending q).triggers = s.triggers := rfl
@[simp] theorem State.withPending_cues (s : State) (q : List Instr) : (s.withPending q).cues = s.cues := rfl
@[simp] theorem State.withPending_slots (s : State) (q : List Instr) : (s.withPending q).slots = s.slots := rfl
@[simp] theorem State.withPending_strayReads (s : State) (q : List Instr) : (s.withPending q).strayReads = s.strayReads := rfl
@[simp] theorem State.withPending_grantQueue (s : State) (q : List Instr) : (s.withPending q).grantQueue = s.grantQueue := rfl
@[simp] theorem State.withPending_clips (s : State) (q : List Instr) : (s.withPending q).clips = s.clips := rfl
@[simp] theorem State.withPending_loadQueue (s : State) (q : List Instr) : (s.withPending q).loadQueue = s.loadQueue := rfl
@[simp] theorem State.withPending_copy (s : State) (q : List Instr) : (s.withPending q).copy = s.copy := rfl
@[simp] theorem State.withPending_clipMem (s : State) (q : List Instr) : (s.withPending q).clipMem = s.clipMem := rfl
@[simp] theorem State.withPending_powerOns (s : State) (q : List Instr) : (s.withPending q).powerOns = s.powerOns := rfl
@[simp] theorem State.withPending_ports (s : State) (q : List Instr) : (s.withPending q).ports = s.ports := rfl
@[simp] theorem State.withPending_nextTag (s : State) (q : List Instr) : (s.withPending q).nextTag = s.nextTag := rfl
@[simp] theorem State.withPending_sent (s : State) (q : List Instr) : (s.withPending q).sent = s.sent := rfl
@[simp] theorem State.withPending_pending (s : State) (q : List Instr) : (s.withPending q).pending = q := rfl

end Sys2Proof.Machine
end

