-- ==== Sys2Proof/Laws/Calm.lean ====
section
/-!
SUPPORT. What almost every operation leaves alone, said once: State.Calm s t holds when t has the clock, the mode, the clip
memory, the host windows, the generations and the queue of s, no slot counts more rate in t than in s, and every clip of t is
a clip of s with the same extent. It is reflexive and transitive, and each shared operation has one lemma here.
-/

namespace Sys2Proof.Machine

/-- A clip with the extent of another. -/
def Clip.SameExtent (c d : Clip) : Prop := c.basePage = d.basePage ∧ c.pageCount = d.pageCount ∧ c.length = d.length

structure State.Calm (s t : State) : Prop where
  phase : t.phase = s.phase
  profileDefaults : t.profileDefaults = s.profileDefaults
  profilePartial : t.profilePartial = s.profilePartial
  refTime : t.refTime = s.refTime
  sceneTime : t.sceneTime = s.sceneTime
  latch : t.latch = s.latch
  pointer : t.pointer = s.pointer
  clipMem : t.clipMem = s.clipMem
  powerOns : t.powerOns = s.powerOns
  spentIntervals : t.spentIntervals = s.spentIntervals
  pending : t.pending = s.pending
  window : ∀ l, (t.units.get l).window = (s.units.get l).window
  listBase : ∀ l, (t.units.get l).listBase = (s.units.get l).listBase
  entryGen : ∀ i, (t.entries.get i).gen = (s.entries.get i).gen
  entryMark : ∀ i, (t.entries.get i).unused = (s.entries.get i).unused
  clipGen : ∀ i, (t.clips.get i).gen = (s.clips.get i).gen
  fadeGen : ∀ i, (t.fades.get i).gen = (s.fades.get i).gen
  rate : ∀ n, (t.slots.get n).rate ≤ (s.slots.get n).rate
  clips : ∀ i d, (t.clips.get i).clip = some d → ∃ c, (s.clips.get i).clip = some c ∧ d.SameExtent c

theorem State.Calm.refl (s : State) : s.Calm s := by
  constructor <;> try intros
  all_goals first
    | rfl
    | exact Nat.le_refl _
    | (rename_i h; exact ⟨_, h, rfl, rfl, rfl⟩)

theorem State.Calm.trans {s t u : State} (a : s.Calm t) (b : t.Calm u) : s.Calm u := by
  constructor
  case rate => intro n; exact Nat.le_trans (b.rate n) (a.rate n)
  case clips =>
    intro i d h
    obtain ⟨c, hc, e1, e2, e3⟩ := b.clips i d h
    obtain ⟨c', hc', f1, f2, f3⟩ := a.clips i c hc
    exact ⟨c', hc', e1.trans f1, e2.trans f2, e3.trans f3⟩
  case window => intro l; rw [b.window, a.window]
  case listBase => intro l; rw [b.listBase, a.listBase]
  case entryGen => intro l; rw [b.entryGen, a.entryGen]
  case entryMark => intro l; rw [b.entryMark, a.entryMark]
  case clipGen => intro l; rw [b.clipGen, a.clipGen]
  case fadeGen => intro l; rw [b.fadeGen, a.fadeGen]
  · exact b.phase.trans a.phase
  · exact b.profileDefaults.trans a.profileDefaults
  · exact b.profilePartial.trans a.profilePartial
  · exact b.refTime.trans a.refTime
  · exact b.sceneTime.trans a.sceneTime
  · exact b.latch.trans a.latch
  · exact b.pointer.trans a.pointer
  · exact b.clipMem.trans a.clipMem
  · exact b.powerOns.trans a.powerOns
  · exact b.spentIntervals.trans a.spentIntervals
  · exact b.pending.trans a.pending

/-- A fold of calm operations is calm. -/
theorem State.Calm.foldl {α : Type} (f : State → α → State) (h : ∀ (s : State) a, s.Calm (f s a)) (xs : List α) (s : State) :
    s.Calm (xs.foldl f s) := by
  induction xs generalizing s with
  | nil => exact State.Calm.refl s
  | cons a xs ih => exact (h s a).trans (ih (f s a))

/-- An update of none of the fields that Calm speaks of. -/
theorem State.Calm.of_eq {s t : State} (h1 : t.phase = s.phase) (h2 : t.profileDefaults = s.profileDefaults)
    (h3 : t.profilePartial = s.profilePartial) (h4 : t.refTime = s.refTime) (h5 : t.sceneTime = s.sceneTime)
    (h6 : t.latch = s.latch) (h7 : t.pointer = s.pointer) (h8 : t.clipMem = s.clipMem) (h9 : t.powerOns = s.powerOns)
    (h10 : t.spentIntervals = s.spentIntervals) (h11 : t.pending = s.pending) (h12 : t.units = s.units)
    (h13 : t.entries = s.entries) (h14 : t.clips = s.clips) (h15 : t.fades = s.fades) (h16 : t.slots = s.slots) :
    s.Calm t := by
  constructor <;> simp_all
  intro i d h
  exact ⟨rfl, rfl, rfl⟩

/-! ## Setters. Each lemma says that an operation after a calm passage leaves it calm. -/

theorem State.Calm.same {s t u : State} (h : s.Calm t) (h1 : u.phase = t.phase)
    (h2 : u.profileDefaults = t.profileDefaults) (h3 : u.profilePartial = t.profilePartial)
    (h4 : u.refTime = t.refTime) (h5 : u.sceneTime = t.sceneTime) (h6 : u.latch = t.latch) (h7 : u.pointer = t.pointer)
    (h8 : u.clipMem = t.clipMem) (h9 : u.powerOns = t.powerOns) (h10 : u.spentIntervals = t.spentIntervals)
    (h11 : u.pending = t.pending) (h12 : u.units = t.units) (h13 : u.entries = t.entries) (h14 : u.clips = t.clips)
    (h15 : u.fades = t.fades) (h16 : u.slots = t.slots) : s.Calm u :=
  h.trans (.of_eq h1 h2 h3 h4 h5 h6 h7 h8 h9 h10 h11 h12 h13 h14 h15 h16)

theorem State.Calm.setUnit {s t : State} (h : s.Calm t) {l : Lane} {u : RequestUnit}
    (a : u.window = (t.units.get l).window) (b : u.listBase = (t.units.get l).listBase) : s.Calm (t.setUnit l u) := by
  have e : ∀ m, ((t.units.set l u).get m).window = (t.units.get m).window := by
    intro m; rw [Table.get_set]; split
    · subst m; exact a
    · rfl
  have f : ∀ m, ((t.units.set l u).get m).listBase = (t.units.get m).listBase := by
    intro m; rw [Table.get_set]; split
    · subst m; exact b
    · rfl
  refine h.trans ?_
  constructor <;> simp [State.setUnit, e, f]
  intro i d h
  exact ⟨d, h, rfl, rfl, rfl⟩

theorem State.Calm.setEntry {s t : State} (h : s.Calm t) {i : EntryNo} {e : Entry} (a : e.gen = (t.entries.get i).gen)
    (b : e.unused = (t.entries.get i).unused) : s.Calm (t.setEntry i e) := by
  have x : ∀ m, ((t.entries.set i e).get m).gen = (t.entries.get m).gen := by
    intro m; rw [Table.get_set]; split
    · subst m; exact a
    · rfl
  have y : ∀ m, ((t.entries.set i e).get m).unused = (t.entries.get m).unused := by
    intro m; rw [Table.get_set]; split
    · subst m; exact b
    · rfl
  refine h.trans ?_
  constructor <;> simp [State.setEntry, x, y]
  intro i d h
  exact ⟨d, h, rfl, rfl, rfl⟩

theorem State.Calm.setFade {s t : State} (h : s.Calm t) {i : FadeNo} {f : FadeSlot} (a : f.gen = (t.fades.get i).gen) :
    s.Calm (t.setFade i f) := by
  have x : ∀ m, ((t.fades.set i f).get m).gen = (t.fades.get m).gen := by
    intro m; rw [Table.get_set]; split
    · subst m; exact a
    · rfl
  refine h.trans ?_
  constructor <;> simp [State.setFade, x]
  intro i d h
  exact ⟨d, h, rfl, rfl, rfl⟩

theorem State.Calm.setSlot {s t : State} (h : s.Calm t) {n : SlotNo} {x : StreamSlot}
    (a : x.rate ≤ (t.slots.get n).rate) : s.Calm (t.setSlot n x) := by
  have y : ∀ m, ((t.slots.set n x).get m).rate ≤ (t.slots.get m).rate := by
    intro m; rw [Table.get_set]; split
    · subst m; exact a
    · exact Nat.le_refl _
  refine h.trans ?_
  constructor <;> simp [State.setSlot, y]
  intro i d h
  exact ⟨d, h, rfl, rfl, rfl⟩

theorem State.Calm.setClip {s t : State} (h : s.Calm t) {i : ClipNo} {x : ClipSlot} (a : x.gen = (t.clips.get i).gen)
    (k : ∀ d, x.clip = some d → ∃ c, (t.clips.get i).clip = some c ∧ d.SameExtent c) : s.Calm (t.setClip i x) := by
  have y : ∀ m, ((t.clips.set i x).get m).gen = (t.clips.get m).gen := by
    intro m; rw [Table.get_set]; split
    · subst m; exact a
    · rfl
  have b : ∀ m d, ((t.clips.set i x).get m).clip = some d → ∃ c, (t.clips.get m).clip = some c ∧ d.SameExtent c := by
    intro m d; rw [Table.get_set]; split
    · subst m; exact k d
    · intro e; exact ⟨d, e, rfl, rfl, rfl⟩
  refine h.trans ?_
  constructor <;> simp [State.setClip, y]
  exact b

theorem State.Calm.setTrigger {s t : State} (h : s.Calm t) {x : Trigger} {r : TriggerRec} : s.Calm (t.setTrigger x r) := by apply h.same <;> rfl

theorem State.Calm.setCue {s t : State} (h : s.Calm t) {q : CueLine} {c : CueState} : s.Calm (t.setCue q c) := by apply h.same <;> rfl

theorem State.Calm.setPort {s t : State} (h : s.Calm t) {p : Port} {r : PortRec} : s.Calm (t.setPort p r) := by apply h.same <;> rfl

theorem State.Calm.post {s t : State} (h : s.Calm t) {m : Message} : s.Calm (t.post m) := by apply h.same <;> rfl

theorem State.Calm.withdraw {s t : State} (h : s.Calm t) {f : Expiry → Bool} : s.Calm (t.withdraw f) := by apply h.same <;> rfl

theorem State.Calm.bumpTag {s t : State} (h : s.Calm t) : s.Calm (t.bumpTag) := by apply h.same <;> rfl

theorem State.Calm.send {s t : State} (h : s.Calm t) {x : Sent} : s.Calm (t.send x) := by apply h.same <;> rfl

theorem State.Calm.joinQueue {s t : State} (h : s.Calm t) {k : EmitterHandle} : s.Calm (t.joinQueue k) := by apply h.same <;> rfl

theorem State.Calm.request {s t : State} (h : s.Calm t) {e : Expiry} {due : Int} : s.Calm (t.request e due) := by
  unfold State.request
  split
  · exact h.post
  · apply h.same <;> rfl

theorem State.Calm.take {s t u : State} (h : s.Calm t) {m : Message} (e : t.take m = some u) : s.Calm u := by
  unfold State.take at e
  split at e
  · cases e; apply h.same <;> rfl
  · cases e

/-! ## Records, clips and causes -/

theorem State.Calm.putRecord {s t : State} (h : s.Calm t) {i : EntryNo} {r : Record} : s.Calm (t.putRecord i r) := by
  exact h.setEntry (by rfl) (by rfl)

theorem State.Calm.modifyRecord {s t : State} (h : s.Calm t) {k : EmitterHandle} {f : Record → Record} : s.Calm (t.modifyRecord k f) := by
  unfold State.modifyRecord
  split
  · exact h.putRecord
  · exact h

theorem State.clipAt_slot {s : State} {h : ClipHandle} {c : Clip} (e : s.clipAt h = some c) :
    (s.clips.get h.slot).clip = some c := by
  unfold State.clipAt at e
  simp only at e
  split at e
  · exact e
  · cases e

theorem State.Calm.putClip {s t : State} (h : s.Calm t) {i : ClipNo} {c d : Clip} (a : (t.clips.get i).clip = some c)
    (b : d.SameExtent c) : s.Calm (t.putClip i d) :=
  h.setClip rfl fun x e => by cases e; exact ⟨c, a, b⟩

theorem State.Calm.writeCauses {s t : State} (h : s.Calm t) {l : Lane} {a b : BitVec 9} : s.Calm (t.writeCauses l a b) := by
  unfold State.writeCauses
  simp only
  split
  · exact .send (h.setUnit (by rfl) (by rfl))
  · exact h.setUnit (by rfl) (by rfl)

theorem State.Calm.setCause {s t : State} (h : s.Calm t) {l : Lane} {c : Cause} : s.Calm (t.setCause l c) := by
  exact h.writeCauses

theorem State.Calm.raiseEmitter {s t : State} (h : s.Calm t) {k : EmitterHandle} {f : EmCauses → EmCauses} : s.Calm (t.raiseEmitter k f) := by
  unfold State.raiseEmitter
  split
  · exact h
  · exact .setCause h.putRecord

theorem State.Calm.raiseReadError {s t : State} (h : s.Calm t) {c : ClipHandle} : s.Calm (t.raiseReadError c) := by
  unfold State.raiseReadError
  split
  · exact h
  · rename_i e
    exact .setCause (h.putClip (t.clipAt_slot e) (by exact ⟨rfl, rfl, rfl⟩))

theorem State.Calm.raisePort {s t : State} (h : s.Calm t) {p : Port} {f : PortCauses → PortCauses} : s.Calm (t.raisePort p f) := by
  exact .setCause h.setPort

/-! ## Holdings -/

theorem State.Calm.modifyPort {s t : State} (h : s.Calm t) {p : Port} {f : PortRec → PortRec} : s.Calm (t.modifyPort p f) := by
  exact h.setPort

theorem State.Calm.joinPorts {s t : State} (h : s.Calm t) {ps : List Port} {k : EmitterHandle} {w : Nat} : s.Calm (t.joinPorts ps k w) := by
  exact h.trans (State.Calm.foldl _ (fun _ _ => (State.Calm.refl _).modifyPort) _ _)

theorem State.Calm.leavePorts {s t : State} (h : s.Calm t) {ps : List Port} {k : EmitterHandle} : s.Calm (t.leavePorts ps k) := by
  exact h.trans (State.Calm.foldl _ (fun _ _ => (State.Calm.refl _).modifyPort) _ _)

theorem State.Calm.takeReference {s t : State} (h : s.Calm t) {c : ClipHandle} : s.Calm (t.takeReference c) := by
  unfold State.takeReference
  split
  · exact h
  · rename_i e
    exact h.putClip (t.clipAt_slot e) (by exact ⟨rfl, rfl, rfl⟩)

theorem State.Calm.releaseReference {s t : State} (h : s.Calm t) {c : ClipHandle} : s.Calm (t.releaseReference c) := by
  unfold State.releaseReference
  split
  · exact h
  · rename_i e
    split
    · unfold State.drainClip
      exact .setCause (h.setClip (by rfl) (by intro d e; simp at e))
    · exact h.putClip (t.clipAt_slot e) (by exact ⟨rfl, rfl, rfl⟩)

theorem State.Calm.leaveWaiting {s t : State} (h : s.Calm t) {k : EmitterHandle} : s.Calm (t.leaveWaiting k) := by
  apply h.same <;> rfl

theorem State.Calm.releaseSlot {s t : State} (h : s.Calm t) {k : EmitterHandle} : s.Calm (t.releaseSlot k) := by
  unfold State.releaseSlot
  split
  · exact h
  · apply State.Calm.same (h.setSlot (x := .free) (by exact Nat.zero_le _)) <;> rfl

theorem State.Calm.leaveApplyPlace {s t : State} (h : s.Calm t) {k : EmitterHandle} {c : Change} : s.Calm (t.leaveApplyPlace k c) := by
  unfold State.leaveApplyPlace
  split
  · exact h
  · exact h.withdraw
  · exact h.setTrigger

theorem State.Calm.releaseReservations {s t : State} (h : s.Calm t) {k : EmitterHandle} {c : Change} : s.Calm (t.releaseReservations k c) := by
  exact h.trans (State.Calm.foldl _ (fun _ _ => (State.Calm.refl _).modifyPort) _ _)

theorem State.Calm.withdrawChange {s t : State} (h : s.Calm t) {k : EmitterHandle} : s.Calm (t.withdrawChange k) := by
  unfold State.withdrawChange
  split
  · exact h
  · split
    · exact h
    · exact .putRecord (.leaveApplyPlace h.releaseReservations)

theorem State.Calm.releaseHoldings {s t : State} (h : s.Calm t) {k : EmitterHandle} : s.Calm (t.releaseHoldings k) := by
  unfold State.releaseHoldings
  split
  · exact h
  · split
    · exact .releaseReference (.leavePorts (.releaseSlot (.withdraw (.leaveWaiting h.withdrawChange))))
    · exact h

theorem State.Calm.freeEntry {s t : State} (h : s.Calm t) {k : EmitterHandle} : s.Calm (t.freeEntry k) := by
  apply State.Calm.same (h.setEntry (i := k.slot) (e := { t.entries.get k.slot with record := none }) rfl rfl) <;> rfl

theorem State.Calm.beginSpentInterval {s t : State} (h : s.Calm t) {k : EmitterHandle} {l : Lane} : s.Calm (t.beginSpentInterval k l) := by
  unfold State.beginSpentInterval
  simp only
  split
  · exact h.freeEntry
  · refine .request ?_
    apply h.same <;> rfl

theorem State.Calm.enterSpent {s t : State} (h : s.Calm t) {k : EmitterHandle} {c : SpentCause} : s.Calm (t.enterSpent k c) := by
  unfold State.enterSpent
  split
  · exact h
  · refine .beginSpentInterval ?_
    split
    · exact .raiseEmitter (.putRecord h.releaseHoldings)
    · exact .putRecord h.releaseHoldings

theorem State.Calm.flushEntry {s t : State} (h : s.Calm t) {k : EmitterHandle} : s.Calm (t.flushEntry k) := by
  exact .freeEntry h.releaseHoldings

theorem State.Calm.flushWhere {s t : State} (h : s.Calm t) {sel : Record → Bool} : s.Calm (t.flushWhere sel) := by
  refine h.trans (State.Calm.foldl _ (fun u i => ?_) _ _)
  split
  · split
    · exact (State.Calm.refl u).flushEntry
    · exact .refl u
  · exact .refl u

/-! ## Streaming -/

theorem State.Calm.issueRun {s t : State} (h : s.Calm t) {n : SlotNo} : s.Calm (t.issueRun n) := by
  unfold State.issueRun
  split
  · exact h
  · simp only
    split
    · exact .bumpTag (h.setSlot (by exact Nat.le_refl _))
    · exact h

theorem State.Calm.issueDemand {s t : State} (h : s.Calm t) {n : SlotNo} : s.Calm (t.issueDemand n) := by
  unfold State.issueDemand
  simp only
  split
  · exact .bumpTag (h.setSlot (by exact Nat.le_refl _))
  · exact h

theorem State.Calm.checkPrimed {s t : State} (h : s.Calm t) {n : SlotNo} : s.Calm (t.checkPrimed n) := by
  unfold State.checkPrimed
  split
  · exact h
  · simp only
    split
    · exact .post (h.setSlot (by exact Nat.le_refl _))
    · exact h

theorem State.Calm.appendRun {s t : State} (h : s.Calm t) {n : SlotNo} {r : Record} {c : Clip} {run : Run} : s.Calm (t.appendRun n r c run) := by
  exact h.setSlot (by exact Nat.le_refl _)

theorem State.Calm.ageBefore {s t : State} (h : s.Calm t) {k : EmitterHandle} : s.Calm (t.ageBefore k) := by
  exact h.trans (State.Calm.foldl _ (fun _ _ => (State.Calm.refl _).modifyRecord) _ _)

theorem State.Calm.countStray {s t : State} (h : s.Calm t) {tag : Nat} {d : Bool} {o : ReadOutcome} : s.Calm (t.countStray tag d o) := by
  unfold State.countStray
  split
  · exact h
  · refine .post ?_
    apply h.same <;> rfl

theorem State.Calm.stall {s t : State} (h : s.Calm t) {n : SlotNo} {r : Record} {run : Run} : s.Calm (t.stall n r run) := by
  unfold State.stall
  simp only
  split
  · exact .issueDemand (h.setSlot (by exact Nat.le_refl _))
  · exact h.setSlot (by exact Nat.le_refl _)

theorem State.Calm.disregardRead {s t : State} (h : s.Calm t) {n : SlotNo} : s.Calm (t.disregardRead n) := by
  unfold State.disregardRead
  exact .issueRun (h.setSlot (by exact Nat.le_refl _))

theorem State.Calm.playSample {s t : State} (h : s.Calm t) {n : SlotNo} {k : EmitterHandle} {r : Record} {rate : Nat} {y : Sample} : s.Calm (t.playSample n k r rate y) := by
  unfold State.playSample
  simp only
  refine State.Calm.trans ?_ (State.Calm.foldl _ (fun _ _ => (State.Calm.refl _).modifyPort) _ _)
  exact .putRecord (h.setSlot (by exact Nat.le_refl _))

theorem State.Calm.playClip {s t : State} (h : s.Calm t) {n : SlotNo} {k : EmitterHandle} {r : Record} {c : Clip} {w : WindowSample} {ws : List WindowSample} : s.Calm (t.playClip n k r c w ws) := by
  unfold State.playClip
  simp only
  refine .issueRun ?_
  split
  · split
    · exact .post (.modifyRecord (.playSample (h.setSlot (by exact Nat.le_refl _))))
    · exact .modifyRecord (.playSample (h.setSlot (by exact Nat.le_refl _)))
  · exact .modifyRecord (.playSample (h.setSlot (by exact Nat.le_refl _)))

theorem State.Calm.playTail {s t : State} (h : s.Calm t) {n : SlotNo} {k : EmitterHandle} {r : Record} {c : Clip} {tail : Nat} : s.Calm (t.playTail n k r c tail) := by
  unfold State.playTail
  simp only
  split
  · exact .post (State.Calm.setSlot h.playSample (by exact Nat.le_refl _))
  · exact h.playSample

theorem State.Calm.playGap {s t : State} (h : s.Calm t) {n : SlotNo} {k : EmitterHandle} {r : Record} {c : Clip} : s.Calm (t.playGap n k r c) := by
  unfold State.playGap
  simp only
  refine .playSample ?_
  split
  · exact h.issueDemand
  · exact h

theorem State.Calm.goOnAir {s t : State} (h : s.Calm t) {k : EmitterHandle} : s.Calm (t.goOnAir k) := by
  unfold State.goOnAir
  split
  · exact h
  · simp only
    split
    · exact .raiseEmitter (.putRecord h.withdraw)
    · exact .putRecord h.withdraw

theorem State.Calm.takePrimed {s t : State} (h : s.Calm t) {k : EmitterHandle} : s.Calm (t.takePrimed k) := by
  unfold State.takePrimed
  split
  · exact h
  · split
    · split
      · exact h.goOnAir
      · exact h.putRecord
    · exact h

theorem State.Calm.takeEndOfClip {s t : State} (h : s.Calm t) {k : EmitterHandle} : s.Calm (t.takeEndOfClip k) := by
  unfold State.takeEndOfClip
  split
  · exact h
  · split
    · exact h.enterSpent
    · exact h

theorem State.Calm.takeRecovered {s t : State} (h : s.Calm t) {k : EmitterHandle} : s.Calm (t.takeRecovered k) := by
  unfold State.takeRecovered
  split
  · exact h
  · split
    · exact .raiseEmitter h.putRecord
    · exact h

theorem State.Calm.takeFailure {s t : State} (h : s.Calm t) {k : EmitterHandle} : s.Calm (t.takeFailure k) := by
  unfold State.takeFailure
  split
  · exact h
  · split
    · exact .raiseEmitter (.putRecord (.withdraw (.releaseSlot h.withdrawChange)))
    · exact h

/-! ## Answers -/

theorem State.Calm.issueWrite {s t : State} (h : s.Calm t) {l : Lane} {a : Answer} {n : Nat} {b : Bool} : s.Calm (t.issueWrite l a n b) := by
  apply h.same <;> rfl

theorem State.Calm.endWrite {s t : State} (h : s.Calm t) {w : HostWrite} {n : Nat} : s.Calm (t.endWrite w n) := by
  apply h.same <;> rfl

theorem State.Calm.beginWrite {s t : State} (h : s.Calm t) {l : Lane} {a : Answer} {n : Nat} {b : Bool} : s.Calm (t.beginWrite l a n b) := by
  exact .issueWrite (h.setUnit (by rfl) (by rfl))

theorem State.Calm.answer {s t : State} (h : s.Calm t) {l : Lane} {a : Answer} : s.Calm (t.answer l a) := by
  exact h.beginWrite

theorem State.Calm.hold {s t : State} (h : s.Calm t) {l : Lane} : s.Calm (t.hold l) := by
  exact h.setUnit (by rfl) (by rfl)

theorem State.Calm.conclude {s t : State} (h : s.Calm t) {α : Type} {l : Lane} {x : Checked α}
    {f : α → State × Answer} (k : ∀ a, x = .ok a → s.Calm (f a).1) : s.Calm (t.conclude l x f) := by
  unfold State.conclude
  split
  · exact h.answer
  · exact .answer (k _ rfl)

/-- What the taking of a message can do. -/
theorem calm_onMessage {s t : State} {m : Message} {f : State → State} (h : ∀ u : State, s.Calm u → s.Calm (f u))
    (e : s.onMessage m f = .next t) : s.Calm t := by
  unfold State.onMessage at e
  split at e
  · rename_i u hu
    cases e
    exact h u ((State.Calm.refl s).take hu)
  · cases e; exact .refl s

/-- What the taking of a request can do. -/
theorem calm_onRequest {s t : State} {l : Lane} {r : Request} {g : Header → Bool} {f : State → State}
    (h : s.Calm (f s)) (e : s.onRequest l r g f = .next t) : s.Calm t := by
  unfold State.onRequest at e
  split at e
  · split at e
    · cases e; exact h
    · cases e; exact .refl s
  · cases e; exact .refl s

/-! ## Emitters and changes -/

theorem State.Calm.joinArmSet {s t : State} (h : s.Calm t) {k : EmitterHandle} : s.Calm (t.joinArmSet k) := by
  apply h.same <;> rfl

theorem State.Calm.becomeWaiting {s t : State} (h : s.Calm t) {k : EmitterHandle} {x : Int} : s.Calm (t.becomeWaiting k x) := by
  exact .joinQueue h.modifyRecord

theorem State.Calm.leadRecord {s t : State} (h : s.Calm t) {k : EmitterHandle} {x : BitVec 64} : s.Calm (t.leadRecord k x) := by
  unfold State.leadRecord
  split
  · exact h
  · split
    · refine .request (.becomeWaiting (.withdraw ?_))
      apply h.same <;> rfl
    · exact h

theorem State.Calm.takeLead {s t : State} (h : s.Calm t) {x : BitVec 64} : s.Calm (t.takeLead x) :=
  h.trans (State.Calm.foldl _ (fun _ _ => (State.Calm.refl _).leadRecord) _ _)

theorem State.Calm.beginStart {s t : State} (h : s.Calm t) {k : EmitterHandle} {p : StartPoint} : s.Calm (t.beginStart k p) := by
  unfold State.beginStart
  simp only
  split
  · exact .becomeWaiting h.modifyRecord
  · exact .setTrigger (.modifyRecord h.modifyRecord)
  · split
    · exact .becomeWaiting (.modifyRecord h.modifyRecord)
    · split
      · exact .takeLead (.joinArmSet (.modifyRecord h.modifyRecord))
      · exact .request (.joinArmSet (.modifyRecord h.modifyRecord))

theorem State.Calm.refill {s t : State} (h : s.Calm t) {k : EmitterHandle} : s.Calm (t.refill k) := by
  unfold State.refill
  split
  · exact h.issueRun
  · exact h

theorem State.Calm.resendEnd {s t : State} (h : s.Calm t) {k : EmitterHandle} : s.Calm (t.resendEnd k) := by
  unfold State.resendEnd
  split
  · split
    · exact h.post
    · exact h
  · exact h

theorem State.Calm.changeStop {s t : State} (h : s.Calm t) {k : EmitterHandle} {c : FieldChange (BitVec 64)} : s.Calm (t.changeStop k c) := by
  unfold State.changeStop
  split
  · exact h
  · exact h.withdraw
  · exact .request h.withdraw

theorem State.Calm.changePorts {s t : State} (h : s.Calm t) {k : EmitterHandle} {a b : BitVec 8} {w : Nat} : s.Calm (t.changePorts k a b w) := by
  refine h.trans (State.Calm.foldl _ (fun u p => ?_) _ _)
  split
  · exact (State.Calm.refl u).modifyPort
  · exact (State.Calm.refl u).modifyPort
  · exact (State.Calm.refl u).modifyPort
  · exact .refl u

theorem State.Calm.handSlot {s t : State} (h : s.Calm t) {k : EmitterHandle} {b : Bool} : s.Calm (t.handSlot k b) := by
  unfold State.handSlot
  split
  · exact h
  · rename_i n _
    split
    · exact h
    · rename_i r c _
      refine .issueRun (.checkPrimed (h.setSlot ?_))
      unfold StreamSlot.moveEnd StreamSlot.reorder
      split <;> split <;> exact Nat.le_refl _

theorem State.Calm.applyValues {s t : State} (h : s.Calm t) {k : EmitterHandle} {v : NewValues} : s.Calm (t.applyValues k v) := by
  unfold State.applyValues
  split
  · exact h
  · exact .handSlot (.changePorts (.changeStop h.putRecord))

theorem State.Calm.applyStaged {s t : State} (h : s.Calm t) {k : EmitterHandle} : s.Calm (t.applyStaged k) := by
  unfold State.applyStaged
  split
  · exact h
  · split
    · exact h
    · exact .applyValues h.leaveApplyPlace

theorem State.Calm.supersede {s t : State} (h : s.Calm t) {k : EmitterHandle} : s.Calm (t.supersede k) := by
  unfold State.supersede
  split
  · exact h
  · split
    · exact .raiseEmitter (.modifyRecord h.withdrawChange)
    · exact h

theorem State.Calm.claimPorts {s t : State} (h : s.Calm t) {k : EmitterHandle} {cs : List PortReservation} : s.Calm (t.claimPorts k cs) := by
  exact h.trans (State.Calm.foldl _ (fun _ _ => (State.Calm.refl _).modifyPort) _ _)

theorem State.Calm.placeChange {s t : State} (h : s.Calm t) {k : EmitterHandle} {n : Nat} {a : ApplyPoint} : s.Calm (t.placeChange k n a) := by
  unfold State.placeChange
  split
  · exact h.request
  · exact h.request
  · exact h.setTrigger

theorem State.Calm.stageChange {s t : State} (h : s.Calm t) {k : EmitterHandle} {c : Change} : s.Calm (t.stageChange k c) := by
  exact .placeChange (.claimPorts h.modifyRecord)

theorem State.Calm.takeApply {s t : State} (h : s.Calm t) {k : EmitterHandle} {n : Nat} {f : ApplyPoint → Bool} : s.Calm (t.takeApply k n f) := by
  unfold State.takeApply
  split
  · exact h
  · split
    · split
      · exact h.applyStaged
      · exact h
    · exact h

theorem State.Calm.beginFade {s t : State} (h : s.Calm t) {k : EmitterHandle} {n : Nat} : s.Calm (t.beginFade k n) := by
  exact .request (.modifyRecord h.withdrawChange)

theorem State.Calm.takeRampEnd {s t : State} (h : s.Calm t) {k : EmitterHandle} : s.Calm (t.takeRampEnd k) := by
  unfold State.takeRampEnd
  split
  · exact h
  · split
    · exact h.enterSpent
    · exact h

theorem State.Calm.takeStopPoint {s t : State} (h : s.Calm t) {k : EmitterHandle} {x : BitVec 64} : s.Calm (t.takeStopPoint k x) := by
  unfold State.takeStopPoint
  split
  · exact h
  · split
    · split
      · exact h.putRecord
      all_goals first
        | exact h.enterSpent
        | exact h
    · exact h

theorem State.Calm.takeSpentExpiry {s t : State} (h : s.Calm t) {k : EmitterHandle} : s.Calm (t.takeSpentExpiry k) := by
  unfold State.takeSpentExpiry
  split
  · exact h
  · split
    · exact h.freeEntry
    · exact h

theorem State.Calm.putFade {s t : State} (h : s.Calm t) {i : FadeNo} {p : Option FadeProfile} : s.Calm (t.putFade i p) := by
  exact h.setFade (by rfl)

theorem State.Calm.deferFade {s t : State} (h : s.Calm t) {f : FadeHandle} {p : FadeProfile} {c : FadeCurve} : s.Calm (t.deferFade f p c) := by
  unfold State.deferFade
  simp only
  split
  · exact h.putFade
  · exact .request h.putFade

theorem State.Calm.mapEntries {s t : State} (h : s.Calm t) {f : Entry → Entry} (a : ∀ e, (f e).gen = e.gen)
    (b : ∀ e, (f e).unused = e.unused) : s.Calm { t with entries := t.entries.map f } := by
  refine h.trans ?_
  constructor <;> simp [a, b]
  intro i d h
  exact ⟨d, h, rfl, rfl, rfl⟩

theorem State.Calm.takeReplacement {s t : State} (h : s.Calm t) {f : FadeHandle} : s.Calm (t.takeReplacement f) := by
  unfold State.takeReplacement
  split
  · exact h
  · split
    · exact h
    · exact State.Calm.mapEntries h.putFade (fun _ => rfl) (fun _ => rfl)

theorem State.Calm.takeStartTime {s t : State} (h : s.Calm t) {k : EmitterHandle} : s.Calm (t.takeStartTime k) := by
  unfold State.takeStartTime
  split
  · exact h
  · split
    · exact h.putRecord
    · split
      · exact h.goOnAir
      · exact h.putRecord
    all_goals exact h

/-! ## Triggers, clips, ports and heads -/

theorem State.Calm.settle {s t : State} (h : s.Calm t) {x : Trigger} {y : Int} : s.Calm (t.settle x y) := by
  unfold State.settle
  simp only
  split
  · exact .post h.setTrigger
  · exact h.setTrigger

theorem State.Calm.qualify {s t : State} (h : s.Calm t) {x : Trigger} : s.Calm (t.qualify x) := by
  unfold State.qualify
  split
  · exact h.settle
  · exact h

theorem State.Calm.releaseArmed {s t : State} (h : s.Calm t) {k : EmitterHandle} {y : Int} : s.Calm (t.releaseArmed k y) := by
  unfold State.releaseArmed
  split
  · exact h
  · split
    · exact h.becomeWaiting
    · exact h

theorem State.Calm.unclaimed {s t : State} (h : s.Calm t) {x : Trigger} {y : Int} : s.Calm (t.unclaimed x y) := by
  exact .setCause h.setTrigger

theorem State.Calm.edgeWork {s t : State} (h : s.Calm t) {x : Trigger} {y : Int} : s.Calm (t.edgeWork x y) := by
  unfold State.edgeWork
  simp only
  refine .setTrigger (State.Calm.trans (h.trans ?_) (State.Calm.foldl _ (fun _ _ => (State.Calm.refl _).releaseArmed) _ _))
  exact State.Calm.foldl _ (fun _ _ => (State.Calm.refl _).applyStaged) _ _

theorem State.Calm.takeEdge {s t : State} (h : s.Calm t) {x : Trigger} {y : Int} : s.Calm (t.takeEdge x y) := by
  unfold State.takeEdge
  simp only
  split
  · exact h.unclaimed
  · exact h.edgeWork

theorem State.Calm.takeCrossing {s t : State} (h : s.Calm t) {k : EmitterHandle} {q : CueLine} {y : Int} : s.Calm (t.takeCrossing k q y) := by
  unfold State.takeCrossing
  split
  · exact h
  · split
    · exact .setCue h.putRecord
    · exact h

theorem State.Calm.issueHostRead {s t : State} (h : s.Calm t) : s.Calm (t.issueHostRead) := by
  unfold State.issueHostRead
  repeat' split
  all_goals first
    | exact h
    | exact h.send

theorem State.Calm.dispatchLoad {s t : State} (h : s.Calm t) : s.Calm (t.dispatchLoad) := by
  unfold State.dispatchLoad
  split
  · refine .issueHostRead (.bumpTag ?_)
    apply h.same <;> rfl
  · exact h

theorem State.Calm.leaveLoading {s t : State} (h : s.Calm t) {c : ClipHandle} {a : ClipState} {b : Option (BitVec 32)} : s.Calm (t.leaveLoading c a b) := by
  unfold State.leaveLoading
  split
  · rename_i e
    split
    · exact h.putClip (t.clipAt_slot e) (by exact ⟨rfl, rfl, rfl⟩)
    · exact h
  · exact h

theorem State.Calm.dropLoad {s t : State} (h : s.Calm t) {f : Load → Bool} : s.Calm (t.dropLoad f) := by
  apply h.same <;> rfl

theorem State.Calm.abortLoad {s t : State} (h : s.Calm t) {l : Lane} : s.Calm (t.abortLoad l) := by
  unfold State.abortLoad
  split
  · exact .leaveLoading h.dropLoad
  · exact h

theorem State.Calm.completeHeld {s t : State} (h : s.Calm t) {l : Lane} {a : Answer} {n : Nat} : s.Calm (t.completeHeld l a n) := by
  exact h.post

theorem State.Calm.endCopy {s t : State} (h : s.Calm t) {x : Copy} {c : Clip} {b : Bool} : s.Calm (t.endCopy x c b) := by
  have k : s.Calm { t with copy := none } := by apply h.same <;> rfl
  unfold State.endCopy
  simp only
  refine .dispatchLoad ?_
  split
  · exact .completeHeld k.leaveLoading
  · exact .completeHeld k.leaveLoading

theorem State.Calm.emptyClip {s t : State} (h : s.Calm t) {c : ClipHandle} : s.Calm (t.emptyClip c) := by
  exact h.setClip (by rfl) (by intro d e; simp at e)

theorem State.Calm.abandonLoadOf {s t : State} (h : s.Calm t) {c : ClipHandle} : s.Calm (t.abandonLoadOf c) := by
  unfold State.abandonLoadOf
  split
  · exact .dispatchLoad (.completeHeld h.dropLoad)
  · exact h

theorem State.Calm.countRead {s t : State} (h : s.Calm t) {c : ClipHandle} {o : ReadOutcome} : s.Calm (t.countRead c o) := by
  unfold State.countRead
  split
  · exact h
  · rename_i e
    split
    · exact h
    · exact h.putClip (t.clipAt_slot e) (by exact ⟨rfl, rfl, rfl⟩)
    · exact .raiseReadError (h.putClip (t.clipAt_slot e) (by exact ⟨rfl, rfl, rfl⟩))

theorem State.Calm.beginExchange {s t : State} (h : s.Calm t) {p : Port} {a : ExchangeKind} {b : ExchangeFor} {c : Bool} : s.Calm (t.beginExchange p a b c) := by
  unfold State.beginExchange
  simp only
  split
  · exact .send h.setPort
  · exact .send h.setPort

theorem State.Calm.endExchange {s t : State} (h : s.Calm t) {p : Port} : s.Calm (t.endExchange p) := by
  exact h.setPort

theorem State.Calm.headFault {s t : State} (h : s.Calm t) {p : Port} {c : FaultCondition} {v : Nat} : s.Calm (t.headFault p c v) := by
  unfold State.headFault
  simp only
  split
  · exact .raisePort h.setPort
  · exact h.setPort

theorem State.Calm.settleConfigure {s t : State} (h : s.Calm t) {p : Port} : s.Calm (t.settleConfigure p) := by
  unfold State.settleConfigure
  split
  · exact h
  · split
    · exact h
    · exact .completeHeld h.setPort

theorem State.Calm.noteSilent {s t : State} (h : s.Calm t) {p q : Port} : s.Calm (t.noteSilent p q) := by
  exact h.setPort

theorem State.Calm.abortPorts {s t : State} (h : s.Calm t) {l : Lane} : s.Calm (t.abortPorts l) := by
  apply h.same <;> rfl

/-! ## The request engine -/

theorem State.Calm.moveUnit {s t : State} (h : s.Calm t) {l : Lane} {x : UnitState} : s.Calm (t.moveUnit l x) := by
  exact h.setUnit (by rfl) (by rfl)

theorem State.Calm.faultUnit {s t : State} (h : s.Calm t) {l : Lane} {d : UnitFault} : s.Calm (t.faultUnit l d) := by
  exact .setCause h.moveUnit

theorem State.Calm.beginRead {s t : State} (h : s.Calm t) {l : Lane} {p : Phase} {b : Option Block} : s.Calm (t.beginRead l p b) := by
  exact .bumpTag (h.setUnit (by rfl) (by rfl))

theorem State.Calm.beginFetch {s t : State} (h : s.Calm t) {l : Lane} {a : BitVec 64} : s.Calm (t.beginFetch l a) := by
  unfold State.beginFetch
  simp only
  split
  · exact .faultUnit (h.setUnit (by rfl) (by rfl))
  · split
    · exact .beginRead (h.setUnit (by rfl) (by rfl))
    · exact .faultUnit (h.setUnit (by rfl) (by rfl))

theorem State.Calm.takeHeader {s t : State} (h : s.Calm t) {l : Lane} {x : Header} : s.Calm (t.takeHeader l x) := by
  unfold State.takeHeader
  simp only
  repeat' split
  all_goals first
    | exact h.beginRead
    | exact h.faultUnit
    | exact h.setUnit (by rfl) (by rfl)

theorem State.Calm.takeArea {s t : State} (h : s.Calm t) {l : Lane} {x : Option Request} : s.Calm (t.takeArea l x) := by
  exact h.setUnit (by rfl) (by rfl)

theorem State.Calm.takeLink {s t : State} (h : s.Calm t) {l : Lane} {x : Option (BitVec 64)} : s.Calm (t.takeLink l x) := by
  unfold State.takeLink
  split
  · exact h.faultUnit
  · split
    · exact h.faultUnit
    · exact h.beginFetch

theorem State.Calm.takeHeldDone {s t : State} (h : s.Calm t) {l : Lane} {a : Answer} : s.Calm (t.takeHeldDone l a) := by
  unfold State.takeHeldDone
  split
  · exact h.answer
  · exact h

theorem State.Calm.actOnFlags {s t : State} (h : s.Calm t) {l : Lane} {x : Header} : s.Calm (t.actOnFlags l x) := by
  have k : s.Calm (if x.notify then t.setCause l .blockNotify else t) := by
    split
    · exact h.setCause
    · exact h
  unfold State.actOnFlags
  simp only
  split
  · exact .setCause k.moveUnit
  · split
    · exact .setCause k.moveUnit
    · exact k.beginFetch

theorem State.Calm.beginResume {s t : State} (h : s.Calm t) {l : Lane} : s.Calm (t.beginResume l) := by
  unfold State.beginResume
  simp only
  split
  · exact h.beginRead
  · exact h.faultUnit

theorem State.Calm.writeAborted {s t : State} (h : s.Calm t) {l : Lane} : s.Calm (t.writeAborted l) := by
  exact h.issueWrite

theorem State.Calm.endHeld {s t : State} (h : s.Calm t) {l : Lane} : s.Calm (t.endHeld l) := by
  unfold State.endHeld
  have k : s.Calm ((t.abortLoad l).abortPorts l) := .abortPorts h.abortLoad
  apply k.same <;> rfl

theorem State.Calm.abortUnit {s t : State} (h : s.Calm t) {l : Lane} : s.Calm (t.abortUnit l) := by
  have k : s.Calm { t with walk := none } := by apply h.same <;> rfl
  unfold State.abortUnit
  split
  · exact h
  · exact h.moveUnit
  · exact h.moveUnit
  · split
    all_goals first
      | exact h.moveUnit
      | exact k.moveUnit
      | exact .moveUnit (.endHeld h.writeAborted)

theorem State.Calm.clearSummaries {s t : State} (h : s.Calm t) : s.Calm (t.clearSummaries) := by
  refine h.trans ?_
  constructor <;> simp [State.clearSummaries]
  intro i d h
  exact ⟨d, h, rfl, rfl, rfl⟩

/-! ## SCAN and SET_LANE -/

theorem State.Calm.clearScanned {s t : State} (h : s.Calm t) {e : ScanEntry} : s.Calm (t.clearScanned e) := by
  unfold State.clearScanned
  split
  · exact h.modifyRecord
  · split
    · rename_i e
      exact h.putClip (t.clipAt_slot e) (by exact ⟨rfl, rfl, rfl⟩)
    · exact h
  · exact h.setClip (by rfl) (by intro d e; exact ⟨d, e, rfl, rfl, rfl⟩)
  · exact h.modifyPort
  · exact h.setTrigger

theorem State.Calm.finishScan {s t : State} (h : s.Calm t) {w : ScanWalk} {c : Continuation} : s.Calm (t.finishScan w c) := by
  unfold State.finishScan
  refine .beginWrite ?_
  apply h.same <;> rfl

theorem State.Calm.scanStep {s t : State} (h : s.Calm t) {w : ScanWalk} : s.Calm (t.scanStep w) := by
  have k : s.Calm (if w.clear = true then
      (((t.scanFound w).take (fitCount w.room w.used (t.scanFound w))).map
        (·.2)).foldl State.clearScanned t else t) := by
    split
    · exact h.trans (State.Calm.foldl _ (fun _ _ => (State.Calm.refl _).clearScanned) _ _)
    · exact h
  unfold State.scanStep
  simp only
  split
  · exact k.finishScan
  · split
    · apply k.same <;> rfl
    · exact k.finishScan

theorem State.Calm.qualifyNow {s t : State} (h : s.Calm t) {x : Trigger} : s.Calm (t.qualifyNow x) := by
  unfold State.qualifyNow
  split
  · exact h.settle
  · exact h

theorem State.Calm.setTriggerSetting {s t : State} (h : s.Calm t) {x : TriggerSetting} : s.Calm (t.setTriggerSetting x) := by
  exact .qualifyNow (.setTrigger h.qualify)

theorem State.Calm.afterPart {s t : State} (h : s.Calm t) {l : Lane} {xs : List LanePart} : s.Calm (t.afterPart l xs) := by
  unfold State.afterPart
  split
  · refine .answer ?_
    apply h.same <;> rfl
  · apply h.same <;> rfl

end Sys2Proof.Machine
end

