-- ==== Sys2Proof/Laws/CalmExec.lean ====
section
/-!
SUPPORT. Which commands leave calm what State.Calm speaks of: all but those that change the clock, the mode, a generation, the
clip memory, a list base, a host window or a slot's rate.
-/

namespace Sys2Proof.Machine

/-- The commands whose passage is not calm. -/
def Instr.stirs : Instr → Bool
  | .powerOn | .benchReset | .registerWrite _ _ | .sceneTimeReadLow _ | .sceneTimeReadHigh | .profileReadDone _ _
  | .profileReadTimeout | .handOver | .create _ _ _ | .defineFade _ _ | .defineClip _ _ | .setTime _ _ | .grant
  | .probeAnswer _ _ _ _ | .setRateAck _ _ | .headExchangeTimeout _ | .copyHostReadDone _ _ | .setLanePart => true
  | _ => false

theorem State.findClip_slot (s : State) {raw : RawHandle} {x : ClipHandle × Clip} (h : s.findClip raw = .ok x) :
    (s.clips.get x.1.slot).clip = some x.2 := by
  unfold State.findClip want at h
  split at h
  · rename_i c e
    cases h
    exact State.clipAt_slot e
  · cases h

theorem State.checkRetireClip_ok (s : State) {l : Lane} {raw : RawHandle} {x : ClipHandle × Clip}
    (h : s.checkRetireClip l raw = .ok x) : s.findClip raw = .ok x := by
  unfold State.checkRetireClip at h
  cases k : s.findClip raw with
  | error a => rw [k] at h; cases h
  | ok y =>
    rw [k] at h
    simp only [bind, Except.bind, need] at h
    split at h <;> cases h
    rfl

theorem State.checkQueryClip_ok (s : State) {l : Lane} {raw : RawHandle} {x : ClipHandle × Clip}
    (h : s.checkQueryClip l raw = .ok x) : s.findClip raw = .ok x := by
  unfold State.checkQueryClip at h
  cases k : s.findClip raw with
  | error a => rw [k] at h; cases h
  | ok y =>
    rw [k] at h
    simp only [bind, Except.bind, need] at h
    split at h <;> cases h
    rfl

theorem State.checkLoadClip_ok (s : State) {l : Lane} {q : LoadClipReq} {x : ClipHandle × Clip}
    (h : s.checkLoadClip l q = .ok x) : s.findClip q.clip = .ok x := by
  unfold State.checkLoadClip at h
  cases k : s.findClip q.clip with
  | error a =>
    rw [k] at h
    simp only [bind, Except.bind, need] at h
    split at h <;> cases h
  | ok y =>
    rw [k] at h
    simp only [bind, Except.bind, need] at h
    repeat' split at h
    all_goals cases h
    all_goals rfl

theorem calm_sceneFlush {s t : State} (e : execSceneFlush s = .next t) : s.Calm t := by
  unfold execSceneFlush at e
  split at e
  · simp only [Host.Outcome.next.injEq] at e
    subst e
    refine State.Calm.flushWhere (State.Calm.clearSummaries ?_)
    exact State.Calm.foldl (fun (u : State) (l : Lane) => u.abortUnit l) (fun u _ => (State.Calm.refl u).abortUnit) _ _
  · cases e; exact .refl s

theorem calm_windowStart {s t : State} {l : Lane} (e : execWindowStart l s = .next t) : s.Calm t := by
  unfold execWindowStart at e
  simp only at e
  split at e
  · split at e <;> cases e
    · exact (State.Calm.refl s).beginFetch
    · exact (State.Calm.refl s).beginFetch
    · exact (State.Calm.refl s).setCause
    · exact (State.Calm.refl s).setCause
  · cases e; exact (State.Calm.refl s).setCause

theorem calm_windowResume {s t : State} {l : Lane} (e : execWindowResume l s = .next t) : s.Calm t := by
  unfold execWindowResume at e
  split at e
  · split at e <;> cases e
    · exact (State.Calm.refl s).beginResume
    · exact (State.Calm.refl s).setCause
  all_goals (cases e; exact (State.Calm.refl s).setCause)

theorem calm_windowAbort {s t : State} {l : Lane} (e : execWindowAbort l s = .next t) : s.Calm t := by
  cases e
  split
  · exact .dispatchLoad (State.Calm.refl s).abortUnit
  · exact (State.Calm.refl s).abortUnit

theorem calm_listCommandInvalid {s t : State} {l : Lane} {v : BitVec 32} (e : execListCommandInvalid l v s = .next t) : s.Calm t := by
  unfold execListCommandInvalid at e
  split at e <;> cases e
  · exact .refl s
  · exact (State.Calm.refl s).setCause

theorem calm_causeSummaryWrite {s t : State} {l : Lane} {v : BitVec 32} (e : execCauseSummaryWrite l v s = .next t) : s.Calm t := by
  cases e; exact (State.Calm.refl s).writeCauses

theorem calm_interruptEnableWrite {s t : State} {l : Lane} {v : BitVec 32} (e : execInterruptEnableWrite l v s = .next t) : s.Calm t := by
  cases e; exact (State.Calm.refl s).writeCauses

theorem calm_fetchHeaderDone {s t : State} {l : Lane} {n : Nat} {x : Header} (e : execFetchHeaderDone l n x s = .next t) : s.Calm t := by
  unfold execFetchHeaderDone at e
  split at e <;> cases e
  · exact (State.Calm.refl s).takeHeader
  · exact .refl s

theorem calm_fetchRequestDone {s t : State} {l : Lane} {n : Nat} {x : Option Request} (e : execFetchRequestDone l n x s = .next t) : s.Calm t := by
  unfold execFetchRequestDone at e
  split at e <;> cases e
  · exact (State.Calm.refl s).takeArea
  · exact .refl s

theorem calm_fetchReadFailed {s t : State} {l : Lane} {n : Nat} (e : execFetchReadFailed l n s = .next t) : s.Calm t := by
  unfold execFetchReadFailed at e
  split at e <;> cases e
  · exact (State.Calm.refl s).faultUnit
  · exact .refl s

theorem calm_resumeLinkReadDone {s t : State} {l : Lane} {n : Nat} {x : Option (BitVec 64)} (e : execResumeLinkReadDone l n x s = .next t) : s.Calm t := by
  unfold execResumeLinkReadDone at e
  split at e <;> cases e
  · exact (State.Calm.refl s).takeLink
  · exact .refl s

theorem calm_heldRequestComplete {s t : State} {l : Lane} (e : execHeldRequestComplete l s = .next t) : s.Calm t := by
  unfold execHeldRequestComplete at e
  split at e
  · exact calm_onMessage (fun u h => h.takeHeldDone) e
  · cases e; exact .refl s

theorem calm_writeDone {s t : State} {l : Lane} {n : Nat} (e : execWriteDone l n s = .next t) : s.Calm t := by
  unfold execWriteDone at e
  split at e
  · cases e; exact .refl s
  · simp only at e
    split at e <;> cases e
    · exact .actOnFlags (.endWrite (.refl s))
    · exact .endWrite (.refl s)

theorem calm_writeFailed {s t : State} {l : Lane} {n : Nat} (e : execWriteFailed l n s = .next t) : s.Calm t := by
  unfold execWriteFailed at e
  split at e
  · cases e; exact .refl s
  · simp only at e
    split at e <;> cases e
    · exact .faultUnit (.endWrite (.refl s))
    · exact .endWrite (.refl s)

theorem calm_nop {s t : State} {l : Lane} (e : execNop l s = .next t) : s.Calm t := by
  exact calm_onRequest (State.Calm.refl s).answer e

theorem calm_start {s t : State} {l : Lane} {q : StartReq} {b : Bool} (e : execStart l q b s = .next t) : s.Calm t := by
  refine calm_onRequest (.conclude (.refl s) fun x _ => ?_) e
  exact (State.Calm.refl s).beginStart

theorem calm_modify {s t : State} {l : Lane} {q : ModifyReq} (e : execModify l q s = .next t) : s.Calm t := by
  refine calm_onRequest (.conclude (.refl s) fun x _ => ?_) e
  unfold State.modifyEffect
  simp only
  split
  · exact .applyValues (.supersede (.modifyRecord (.refl s)))
  · exact .stageChange (.supersede (.modifyRecord (.refl s)))

theorem calm_pause {s t : State} {l : Lane} {r : RawHandle} (e : execPause l r s = .next t) : s.Calm t := by
  refine calm_onRequest (.conclude (.refl s) fun x _ => ?_) e
  exact .refill (.putRecord (.refl s))

theorem calm_resume {s t : State} {l : Lane} {r : RawHandle} (e : execResume l r s = .next t) : s.Calm t := by
  refine calm_onRequest (.conclude (.refl s) fun x _ => ?_) e
  exact .resendEnd (.putRecord (.refl s))

theorem calm_retire {s t : State} {l : Lane} {q : RetireReq} (e : execRetire l q s = .next t) : s.Calm t := by
  refine calm_onRequest (.conclude (.refl s) fun x _ => ?_) e
  unfold State.retireEffect
  split
  · exact .enterSpent (.refl s)
  · exact .beginFade (.refl s)

theorem calm_queryEmitter {s t : State} {l : Lane} {r : RawHandle} {b : Bool} (e : execQueryEmitter l r b s = .next t) : s.Calm t := by
  refine calm_onRequest (.conclude (.refl s) fun x _ => ?_) e
  unfold State.queryEmitterEffect
  simp only
  split
  · exact .putRecord (.refl s)
  · exact .refl s

theorem calm_retireFade {s t : State} {l : Lane} {r : RawHandle} (e : execRetireFade l r s = .next t) : s.Calm t := by
  refine calm_onRequest (.conclude (.refl s) fun x _ => ?_) e
  exact .putFade (.refl s)

theorem calm_flushLane {s t : State} {l : Lane} {b : BitVec 8} (e : execFlushLane l b s = .next t) : s.Calm t := by
  refine calm_onRequest (.conclude (.refl s) fun x _ => ?_) e
  unfold State.flushEffect
  dsimp only
  exact State.Calm.flushWhere (State.Calm.refl s)

theorem calm_loadClip {s t : State} {l : Lane} {q : LoadClipReq} (e : execLoadClip l q s = .next t) : s.Calm t := by
  refine calm_onRequest ?_ e
  split
  · exact .answer (.refl s)
  · rename_i h c hc
    have hd := s.findClip_slot (s.checkLoadClip_ok hc)
    have a : s.Calm (s.putClip h.slot { c with state := .loading, corrected := 0, uncorrectable := 0, computedCrc := none }) :=
      (State.Calm.refl s).putClip hd ⟨rfl, rfl, rfl⟩
    refine .hold (.dispatchLoad ?_)
    apply a.same <;> rfl

theorem calm_loadCopyEnd {s t : State} {n : Nat} {b : Bool} (e : execLoadCopyEnd n b s = .next t) : s.Calm t := by
  unfold execLoadCopyEnd at e
  split at e
  · split at e <;> cases e
    · exact (State.Calm.refl s).endCopy
    · exact .refl s
  · cases e; exact .refl s

theorem calm_retireClip {s t : State} {l : Lane} {r : RawHandle} (e : execRetireClip l r s = .next t) : s.Calm t := by
  refine calm_onRequest (.conclude (.refl s) fun x hx => ?_) e
  have k := s.findClip_slot (s.checkRetireClip_ok hx)
  unfold State.retireClipEffect
  simp only
  split
  · exact .emptyClip (.refl s)
  · exact .abandonLoadOf (.emptyClip (.refl s))
  · split
    · exact .emptyClip (.refl s)
    · exact (State.Calm.refl s).putClip k (by exact ⟨rfl, rfl, rfl⟩)
  · exact .refl s

theorem calm_queryClip {s t : State} {l : Lane} {r : RawHandle} {b : Bool} (e : execQueryClip l r b s = .next t) : s.Calm t := by
  refine calm_onRequest (.conclude (.refl s) fun x hx => ?_) e
  have k := s.findClip_slot (s.checkQueryClip_ok hx)
  unfold State.queryClipEffect
  simp only
  split
  · exact (State.Calm.refl s).putClip k (by exact ⟨rfl, rfl, rfl⟩)
  · exact .refl s

theorem calm_configurePort {s t : State} {l : Lane} {q : ConfigurePortReq} (e : execConfigurePort l q s = .next t) : s.Calm t := by
  refine calm_onRequest ?_ e
  split
  · exact .answer (.refl s)
  · refine .hold (State.Calm.trans ?_ (State.Calm.foldl _ (fun _ _ => (State.Calm.refl _).beginExchange) _ _))
    exact .modifyPort (.refl s)

theorem calm_restartPort {s t : State} {l : Lane} {b : BitVec 8} (e : execRestartPort l b s = .next t) : s.Calm t := by
  refine calm_onRequest ?_ e
  split
  · exact .answer (.refl s)
  · exact .hold (.beginExchange (.refl s))

theorem calm_setOutput {s t : State} {l : Lane} {q : SetOutputReq} (e : execSetOutput l q s = .next t) : s.Calm t := by
  refine calm_onRequest (.conclude (.refl s) fun x _ => ?_) e
  unfold State.setOutputEffect
  simp only
  split
  · exact .setPort (.refl s)
  · exact .request (.setPort (.refl s))

theorem calm_queryPort {s t : State} {l : Lane} {p : BitVec 8} {b : Bool} (e : execQueryPort l p b s = .next t) : s.Calm t := by
  refine calm_onRequest (.conclude (.refl s) fun x _ => ?_) e
  unfold State.queryPortEffect
  simp only
  split
  · exact .modifyPort (.refl s)
  · exact .refl s

theorem calm_scan {s t : State} {l : Lane} {x : Option ScanStart} {b : Bool} (e : execScan l x b s = .next t) : s.Calm t := by
  refine calm_onRequest ?_ e
  split
  · exact .answer (.refl s)
  · apply (State.Calm.refl s).same <;> rfl

theorem calm_scanClassRead {s t : State} (e : execScanClassRead s = .next t) : s.Calm t := by
  unfold execScanClassRead at e
  split at e <;> cases e
  · exact .scanStep (.refl s)
  all_goals exact .refl s

theorem calm_setLane {s t : State} {l : Lane} {q : SetLaneReq} (e : execSetLane l q s = .next t) : s.Calm t := by
  refine calm_onRequest ?_ e
  split
  · exact .answer (.refl s)
  · apply (State.Calm.refl s).same <;> rfl

theorem calm_spentExpiry {s t : State} {h : EmitterHandle} (e : execSpentExpiry h s = .next t) : s.Calm t := by
  exact calm_onMessage (fun u h => h.takeSpentExpiry) e

theorem calm_startLeadExpiry {s t : State} {x : BitVec 64} (e : execStartLeadExpiry x s = .next t) : s.Calm t := by
  unfold execStartLeadExpiry at e
  split at e <;> cases e
  · refine .takeLead ?_
    apply (State.Calm.refl s).same <;> rfl
  · apply (State.Calm.refl s).same <;> rfl

theorem calm_startTimeExpiry {s t : State} {h : EmitterHandle} (e : execStartTimeExpiry h s = .next t) : s.Calm t := by
  exact calm_onMessage (fun u h => h.takeStartTime) e

theorem calm_stopPointExpiry {s t : State} {h : EmitterHandle} {x : BitVec 64} (e : execStopPointExpiry h x s = .next t) : s.Calm t := by
  exact calm_onMessage (fun u h => h.takeStopPoint) e

theorem calm_atApplyExpiry {s t : State} {h : EmitterHandle} {n : Nat} (e : execAtApplyExpiry h n s = .next t) : s.Calm t := by
  exact calm_onMessage (fun u h => h.takeApply) e

theorem calm_nextFrameApplyExpiry {s t : State} {h : EmitterHandle} {n : Nat} (e : execNextFrameApplyExpiry h n s = .next t) : s.Calm t := by
  exact calm_onMessage (fun u h => h.takeApply) e

theorem calm_rampEndExpiry {s t : State} {h : EmitterHandle} (e : execRampEndExpiry h s = .next t) : s.Calm t := by
  exact calm_onMessage (fun u h => h.takeRampEnd) e

theorem calm_fadeReplacementExpiry {s t : State} {h : FadeHandle} (e : execFadeReplacementExpiry h s = .next t) : s.Calm t := by
  exact calm_onMessage (fun u h => h.takeReplacement) e

theorem calm_outputChangeExpiry {s t : State} {p : Port} (e : execOutputChangeExpiry p s = .next t) : s.Calm t := by
  exact calm_onMessage (fun u h => h.modifyPort) e

theorem calm_triggerLineChange {s t : State} {x : Trigger} {b : Bool} (e : execTriggerLineChange x b s = .next t) : s.Calm t := by
  unfold execTriggerLineChange at e
  simp only at e
  split at e <;> cases e
  · exact .setTrigger (.qualify (.refl s))
  · exact .setTrigger (.refl s)

theorem calm_triggerQualified {s t : State} {x : Trigger} (e : execTriggerQualified x s = .next t) : s.Calm t := by
  cases e; exact .qualify (.refl s)

theorem calm_triggerEdge {s t : State} {x : Trigger} {y : Int} (e : execTriggerEdge x y s = .next t) : s.Calm t := by
  exact calm_onMessage (fun u h => h.takeEdge) e

theorem calm_runReadDone {s t : State} {n : SlotNo} {k : Nat} {o : ReadOutcome} (e : execRunReadDone n k o s = .next t) : s.Calm t := by
  unfold execRunReadDone at e
  split at e
  · simp only at e
    split at e
    · cases e; exact .disregardRead (.post (.refl s))
    · split at e <;> cases e
      · exact .stall (.post (.refl s))
      · exact .issueRun (.checkPrimed (.appendRun (.post (.refl s))))
  · cases e; exact .countStray (.refl s)

theorem calm_primedReport {s t : State} {h : EmitterHandle} (e : execPrimedReport h s = .next t) : s.Calm t := by
  exact calm_onMessage (fun u h => h.takePrimed) e

theorem calm_slotOutputSample {s t : State} {n : SlotNo} (e : execSlotOutputSample n s = .next t) : s.Calm t := by
  unfold execSlotOutputSample at e
  split at e
  · cases e; exact .refl s
  · split at e
    · simp only at e
      split at e
      · cases e; exact .playTail (.refl s)
      · cases e; exact .playClip (.refl s)
      · split at e <;> cases e
        · exact .refl s
        · exact .playGap (.refl s)
    · cases e; exact .refl s

theorem calm_endOfClipReport {s t : State} {h : EmitterHandle} (e : execEndOfClipReport h s = .next t) : s.Calm t := by
  exact calm_onMessage (fun u h => h.takeEndOfClip) e

theorem calm_cueCrossing {s t : State} {h : EmitterHandle} {q : CueLine} {y : Int} (e : execCueCrossing h q y s = .next t) : s.Calm t := by
  exact calm_onMessage (fun u h => h.takeCrossing) e

theorem calm_cuePulseEnd {s t : State} {q : CueLine} (e : execCuePulseEnd q s = .next t) : s.Calm t := by
  unfold execCuePulseEnd at e
  split at e
  · cases e; exact .refl s
  · split at e <;> cases e
    · exact .setCue (.refl s)
    · exact .refl s

theorem calm_demandReadDone {s t : State} {n : SlotNo} {k : Nat} {o : ReadOutcome} (e : execDemandReadDone n k o s = .next t) : s.Calm t := by
  unfold execDemandReadDone at e
  split at e
  · simp only at e
    split at e
    · cases e; exact .disregardRead (.post (.refl s))
    · split at e <;> cases e
      · exact .post (.setSlot (.post (.refl s)) (by exact Nat.le_refl _))
      · exact .issueRun (.checkPrimed (.post (.appendRun (.post (.refl s)))))
  · cases e; exact .countStray (.refl s)

theorem calm_recoveredReport {s t : State} {h : EmitterHandle} (e : execRecoveredReport h s = .next t) : s.Calm t := by
  exact calm_onMessage (fun u h => h.takeRecovered) e

theorem calm_failureReport {s t : State} {h : EmitterHandle} (e : execFailureReport h s = .next t) : s.Calm t := by
  exact calm_onMessage (fun u h => h.takeFailure) e

theorem calm_readCountMessage {s t : State} {c : ClipHandle} {o : ReadOutcome} (e : execReadCountMessage c o s = .next t) : s.Calm t := by
  exact calm_onMessage (fun u h => h.countRead) e

theorem calm_clipReferenceRelease {s t : State} {c : ClipHandle} (e : execClipReferenceRelease c s = .next t) : s.Calm t := by
  unfold execClipReferenceRelease at e
  repeat' split at e
  all_goals cases e
  · exact .releaseReference (.refl s)
  · exact .refl s
  · exact .refl s

theorem calm_portJoin {s t : State} {p : Port} {h : EmitterHandle} {w : Nat} (e : execPortJoin p h w s = .next t) : s.Calm t := by
  cases e; exact (State.Calm.refl s).modifyPort

theorem calm_portWeight {s t : State} {p : Port} {h : EmitterHandle} {w : Nat} (e : execPortWeight p h w s = .next t) : s.Calm t := by
  cases e; exact (State.Calm.refl s).modifyPort

theorem calm_portLeave {s t : State} {p : Port} {h : EmitterHandle} (e : execPortLeave p h s = .next t) : s.Calm t := by
  cases e; exact (State.Calm.refl s).modifyPort

theorem calm_reservationClaim {s t : State} {p : Port} {h : EmitterHandle} {b : Bool} {w : Nat} (e : execReservationClaim p h b w s = .next t) : s.Calm t := by
  cases e; exact (State.Calm.refl s).modifyPort

theorem calm_reservationRelease {s t : State} {p : Port} {h : EmitterHandle} (e : execReservationRelease p h s = .next t) : s.Calm t := by
  cases e; exact (State.Calm.refl s).modifyPort

theorem calm_portOutputSample {s t : State} {p : Port} (e : execPortOutputSample p s = .next t) : s.Calm t := by
  cases e; exact (State.Calm.refl s).setPort

theorem calm_headStatusMessage {s t : State} {p : Port} {b : Bool} {c : StatusCondition} {d : BitVec 16} (e : execHeadStatusMessage p b c d s = .next t) : s.Calm t := by
  unfold execHeadStatusMessage at e
  split at e
  · cases e; exact .refl s
  · split at e <;> cases e
    all_goals first
      | exact .refl s
      | exact .headFault (.refl s)

/-- Every command that does not stir is calm. -/
theorem exec_calm {c : Instr} {s t : State} (k : Instr.stirs c = false) (e : exec c s = .next t) : s.Calm t := by
  cases c with
  | powerOn => cases (show true = false from k)
  | benchReset => cases (show true = false from k)
  | sceneFlush => dsimp only [exec] at e; exact calm_sceneFlush e
  | windowStart _ => dsimp only [exec] at e; exact calm_windowStart e
  | windowResume _ => dsimp only [exec] at e; exact calm_windowResume e
  | windowAbort _ => dsimp only [exec] at e; exact calm_windowAbort e
  | listCommandInvalid _ _ => dsimp only [exec] at e; exact calm_listCommandInvalid e
  | causeSummaryWrite _ _ => dsimp only [exec] at e; exact calm_causeSummaryWrite e
  | interruptEnableWrite _ _ => dsimp only [exec] at e; exact calm_interruptEnableWrite e
  | sceneTimeReadLow _ => cases (show true = false from k)
  | sceneTimeReadHigh => cases (show true = false from k)
  | registerWrite _ _ => cases (show true = false from k)
  | profileReadDone _ _ => cases (show true = false from k)
  | profileReadTimeout => cases (show true = false from k)
  | fetchHeaderDone _ _ _ => dsimp only [exec] at e; exact calm_fetchHeaderDone e
  | fetchRequestDone _ _ _ => dsimp only [exec] at e; exact calm_fetchRequestDone e
  | fetchReadFailed _ _ => dsimp only [exec] at e; exact calm_fetchReadFailed e
  | resumeLinkReadDone _ _ _ => dsimp only [exec] at e; exact calm_resumeLinkReadDone e
  | handOver => cases (show true = false from k)
  | heldRequestComplete _ => dsimp only [exec] at e; exact calm_heldRequestComplete e
  | writeDone _ _ => dsimp only [exec] at e; exact calm_writeDone e
  | writeFailed _ _ => dsimp only [exec] at e; exact calm_writeFailed e
  | nop _ => dsimp only [exec] at e; exact calm_nop e
  | create _ _ _ => cases (show true = false from k)
  | start _ _ _ => dsimp only [exec] at e; exact calm_start e
  | modify _ _ => dsimp only [exec] at e; exact calm_modify e
  | pause _ _ => dsimp only [exec] at e; exact calm_pause e
  | resume _ _ => dsimp only [exec] at e; exact calm_resume e
  | retire _ _ => dsimp only [exec] at e; exact calm_retire e
  | queryEmitter _ _ _ => dsimp only [exec] at e; exact calm_queryEmitter e
  | defineFade _ _ => cases (show true = false from k)
  | retireFade _ _ => dsimp only [exec] at e; exact calm_retireFade e
  | flushLane _ _ => dsimp only [exec] at e; exact calm_flushLane e
  | defineClip _ _ => cases (show true = false from k)
  | loadClip _ _ => dsimp only [exec] at e; exact calm_loadClip e
  | loadCopyEnd _ _ => dsimp only [exec] at e; exact calm_loadCopyEnd e
  | retireClip _ _ => dsimp only [exec] at e; exact calm_retireClip e
  | queryClip _ _ _ => dsimp only [exec] at e; exact calm_queryClip e
  | configurePort _ _ => dsimp only [exec] at e; exact calm_configurePort e
  | restartPort _ _ => dsimp only [exec] at e; exact calm_restartPort e
  | setOutput _ _ => dsimp only [exec] at e; exact calm_setOutput e
  | queryPort _ _ _ => dsimp only [exec] at e; exact calm_queryPort e
  | scan _ _ _ => dsimp only [exec] at e; exact calm_scan e
  | scanClassRead => dsimp only [exec] at e; exact calm_scanClassRead e
  | setLane _ _ => dsimp only [exec] at e; exact calm_setLane e
  | setLanePart => cases (show true = false from k)
  | setTime _ _ => cases (show true = false from k)
  | spentExpiry _ => dsimp only [exec] at e; exact calm_spentExpiry e
  | startLeadExpiry _ => dsimp only [exec] at e; exact calm_startLeadExpiry e
  | startTimeExpiry _ => dsimp only [exec] at e; exact calm_startTimeExpiry e
  | stopPointExpiry _ _ => dsimp only [exec] at e; exact calm_stopPointExpiry e
  | atApplyExpiry _ _ => dsimp only [exec] at e; exact calm_atApplyExpiry e
  | nextFrameApplyExpiry _ _ => dsimp only [exec] at e; exact calm_nextFrameApplyExpiry e
  | rampEndExpiry _ => dsimp only [exec] at e; exact calm_rampEndExpiry e
  | fadeReplacementExpiry _ => dsimp only [exec] at e; exact calm_fadeReplacementExpiry e
  | outputChangeExpiry _ => dsimp only [exec] at e; exact calm_outputChangeExpiry e
  | triggerLineChange _ _ => dsimp only [exec] at e; exact calm_triggerLineChange e
  | triggerQualified _ => dsimp only [exec] at e; exact calm_triggerQualified e
  | triggerEdge _ _ => dsimp only [exec] at e; exact calm_triggerEdge e
  | grant => cases (show true = false from k)
  | runReadDone _ _ _ => dsimp only [exec] at e; exact calm_runReadDone e
  | primedReport _ => dsimp only [exec] at e; exact calm_primedReport e
  | slotOutputSample _ => dsimp only [exec] at e; exact calm_slotOutputSample e
  | endOfClipReport _ => dsimp only [exec] at e; exact calm_endOfClipReport e
  | cueCrossing _ _ _ => dsimp only [exec] at e; exact calm_cueCrossing e
  | cuePulseEnd _ => dsimp only [exec] at e; exact calm_cuePulseEnd e
  | demandReadDone _ _ _ => dsimp only [exec] at e; exact calm_demandReadDone e
  | recoveredReport _ => dsimp only [exec] at e; exact calm_recoveredReport e
  | failureReport _ => dsimp only [exec] at e; exact calm_failureReport e
  | readCountMessage _ _ => dsimp only [exec] at e; exact calm_readCountMessage e
  | clipReferenceRelease _ => dsimp only [exec] at e; exact calm_clipReferenceRelease e
  | portJoin _ _ _ => dsimp only [exec] at e; exact calm_portJoin e
  | portWeight _ _ _ => dsimp only [exec] at e; exact calm_portWeight e
  | portLeave _ _ => dsimp only [exec] at e; exact calm_portLeave e
  | reservationClaim _ _ _ _ => dsimp only [exec] at e; exact calm_reservationClaim e
  | reservationRelease _ _ => dsimp only [exec] at e; exact calm_reservationRelease e
  | portOutputSample _ => dsimp only [exec] at e; exact calm_portOutputSample e
  | probeAnswer _ _ _ _ => cases (show true = false from k)
  | setRateAck _ _ => cases (show true = false from k)
  | headExchangeTimeout _ => cases (show true = false from k)
  | headStatusMessage _ _ _ _ => dsimp only [exec] at e; exact calm_headStatusMessage e
  | copyHostReadDone _ _ => cases (show true = false from k)

end Sys2Proof.Machine
end

