-- ==== Sys2Proof/Laws/Ops.lean ====
section
/-!
SUPPORT. What each shared operation does, said once: messages and requests taken, causes set, units moved, answers begun,
records put and read back.
-/

namespace Sys2Proof.Machine

/-! ## Messages and requests -/

/-- A message that is on its way is taken, and leaves the way once. -/
theorem State.onMessage_taken {s : State} {m : Message} {f : State → State} (h : m ∈ s.inFlight) :
    s.onMessage m f = .next (f { s with inFlight := s.inFlight.erase m }) := by
  simp [State.onMessage, State.take, h]

/-- A message that is not on its way is no event. -/
theorem State.onMessage_absent {s : State} {m : Message} {f : State → State} (h : m ∉ s.inFlight) :
    s.onMessage m f = .next s := by
  simp [State.onMessage, State.take, h]

/-- A request that is handed over is taken. -/
theorem State.onRequest_handed {s : State} {l : Lane} {r : Request} {flag : Header → Bool} {f : State → State}
    (h : s.Handed l r flag) : s.onRequest l r flag f = .next (f s) := by
  obtain ⟨hw, hu, b, hb, ha, hf⟩ := h
  simp [State.onRequest, State.handed, hu, hb, ha, hf, hw]

/-- Checks that refuse a request answer it, and nothing else. -/
theorem State.conclude_error {α : Type} {s : State} {l : Lane} {checks : Checked α} {effect : α → State × Answer} {a : Answer}
    (h : checks = .error a) : s.conclude l checks effect = s.answer l a := by
  rw [h]; rfl

/-- Checks that pass give the request its effect. -/
theorem State.conclude_ok {α : Type} {s : State} {l : Lane} {checks : Checked α} {effect : α → State × Answer} {x : α}
    (h : checks = .ok x) : s.conclude l checks effect = (effect x).1.answer l (effect x).2 := by
  rw [h]; rfl

theorem need_ok {b : Bool} {c : Status} (h : b = true) : need b c = .ok () := by simp [need, h]

theorem need_error {b : Bool} {c : Status} (h : b = false) : need b c = .error (.refuse c) := by simp [need, h]

theorem want_some {α : Type} {o : Option α} {a : α} {c : Status} (h : o = some a) : want o c = .ok a := by rw [h]; rfl

theorem want_none {α : Type} {o : Option α} {c : Status} (h : o = none) : want o c = .error (.refuse c) := by rw [h]; rfl

/-! Checks in order: an outcome that is accepted has passed each of them. -/

theorem need_bind_ok {α : Type} {b : Bool} {c : Status} {f : Unit → Checked α} {x : α} :
    ((need b c).bind f = .ok x) ↔ b = true ∧ f () = .ok x := by
  cases b <;> simp [need, Except.bind]

theorem want_bind_ok {α β : Type} {o : Option β} {c : Status} {f : β → Checked α} {x : α} :
    ((want o c).bind f = .ok x) ↔ ∃ a, o = some a ∧ f a = .ok x := by
  cases o <;> simp [want, Except.bind]

theorem needPorts_bind_ok {α : Type} {ps : List Port} {ok : Port → Bool} {c : Status} {f : Unit → Checked α} {x : α} :
    ((needPorts ps ok c).bind f = .ok x) ↔ (∀ p ∈ ps, ok p = true) ∧ f () = .ok x := by
  unfold needPorts
  split
  · rename_i p h
    have a := List.find?_some h
    have b := List.mem_of_find?_eq_some h
    simp only [Except.bind, reduceCtorEq, false_iff, not_and]
    intro n
    have := n p b
    simp [this] at a
  · rename_i h
    simp only [Except.bind, List.find?_eq_none] at *
    simp_all

/-- An emitter handle that passes its slot range, its handle check and its lane check. -/
theorem State.findEmitter_ok {s : State} {l : Lane} {raw : RawHandle} {h : EmitterHandle} {r : Record}
    (a : raw.emitter = some h) (b : s.recordAt h = some r) (c : laneMay l r.lane = true) :
    s.findEmitter l raw = .ok (h, r) := by
  simp [State.findEmitter, want, a, b, need, c, bind, Except.bind, pure, Except.pure]

/-! ## Units, causes and answers -/

/-- What setting new causes and enables does: the unit of the lane takes them, and a message may be sent. -/
theorem State.writeCauses_eq (s : State) (l : Lane) (a b : BitVec 9) :
    s.writeCauses l a b =
      { s with
        units := s.units.set l { s.units.get l with summary := a, enable := b }
        sent := if (s.units.get l).interrupts = false ∧ (a &&& b != 0) = true then s.sent ++ [.interrupt l] else s.sent } := by
  unfold State.writeCauses RequestUnit.interrupts
  simp only [Bool.and_eq_true, Bool.not_eq_true']
  split <;> simp [State.send, State.setUnit]

theorem State.setCause_eq (s : State) (l : Lane) (c : Cause) :
    s.setCause l c =
      { s with
        units := s.units.set l { s.units.get l with summary := (s.units.get l).summary ||| c.bit }
        sent := (s.setCause l c).sent } := by
  rw [State.setCause, State.writeCauses_eq]

@[simp] theorem State.setCause_units (s : State) (l : Lane) (c : Cause) :
    (s.setCause l c).units = s.units.set l { s.units.get l with summary := (s.units.get l).summary ||| c.bit } := by
  rw [State.setCause_eq]

/-- Setting a cause changes the lane's unit, and may send a message; nothing else. -/
theorem State.setCause_frame (s : State) (l : Lane) (c : Cause) :
    s.setCause l c = { s with units := (s.setCause l c).units, sent := (s.setCause l c).sent } := by
  rw [State.setCause, State.writeCauses_eq]

theorem State.faultUnit_eq (s : State) (l : Lane) (d : UnitFault) :
    s.faultUnit l d =
      { s with
        units := s.units.set l { s.units.get l with
          state := .faulted d, block := none, answer := none,
          summary := (s.units.get l).summary ||| Cause.ruFaulted.bit }
        sent := (s.faultUnit l d).sent } := by
  rw [State.faultUnit, State.setCause_eq]
  simp only [State.moveUnit, State.setUnit, Table.get_set_self]
  congr 1
  apply Table.ext_get
  intro k
  simp only [Table.get_set]
  split <;> rfl

/-- A fault of a unit changes the unit, and may send a message; nothing else. -/
theorem State.faultUnit_frame (s : State) (l : Lane) (d : UnitFault) :
    s.faultUnit l d = { s with units := (s.faultUnit l d).units, sent := (s.faultUnit l d).sent } := by
  rw [State.faultUnit_eq]

theorem State.beginRead_eq (s : State) (l : Lane) (p : Phase) (b : Option Block) :
    s.beginRead l p b =
      { s with
        units := s.units.set l { s.units.get l with
          state := .active p, block := b, answer := none, tag := s.nextTag }
        nextTag := s.nextTag + 1 } := rfl

/-- The beginning of a fetch changes the unit, the transfer number, and may send a message; nothing else. -/
theorem State.beginFetch_frame (s : State) (l : Lane) (a : BitVec 64) :
    s.beginFetch l a =
      { s with
        units := (s.beginFetch l a).units, nextTag := (s.beginFetch l a).nextTag, sent := (s.beginFetch l a).sent } := by
  unfold State.beginFetch
  simp only
  repeat' split
  · rw [State.faultUnit_eq]; rfl
  · rfl
  · rw [State.faultUnit_eq]; rfl

theorem State.beginWrite_eq (s : State) (l : Lane) (a : Answer) (n : Nat) (b : Bool) :
    s.beginWrite l a n b =
      { s with
        units := s.units.set l { s.units.get l with
          state := .active .writing, answer := some a, tag := s.nextTag }
        nextTag := s.nextTag + 1
        writes := s.writes ++
          [⟨s.nextTag, l, (s.units.get l).current, (s.units.get l).resultArea, a, n, b⟩] } := by
  simp [State.beginWrite, State.issueWrite, State.setUnit, State.bumpTag, RequestUnit.resultArea, RequestUnit.header]

/-- The write just issued is the one in flight with its number, where no earlier one has it. -/
theorem State.writeOf_issueWrite {s : State} {l : Lane} (fresh : ∀ w ∈ s.writes, w.tag ≠ s.nextTag) (a : Answer) (n : Nat)
    (b : Bool) :
    (s.issueWrite l a n b).writeOf l s.nextTag =
      some ⟨s.nextTag, l, (s.units.get l).current, (s.units.get l).resultArea, a, n, b⟩ := by
  have k : s.writes.find? (fun w => w.lane == l && w.tag == s.nextTag) = none := by
    rw [List.find?_eq_none]
    intro w hw
    simp [fresh w hw]
  simp [State.writeOf, State.issueWrite, State.bumpTag, List.find?_append, k]

/-! ## Records -/

theorem State.recordAt_some {s : State} {h : EmitterHandle} {r : Record} (e : s.recordAt h = some r) :
    (s.entries.get h.slot).gen = h.gen ∧ (s.entries.get h.slot).record = some r := by
  unfold State.recordAt at e
  simp only at e
  split at e
  · exact ⟨by assumption, e⟩
  · cases e

/-- A record put in the entry of an accepted handle is the one that the handle names. -/
theorem State.recordAt_putRecord {s : State} {h : EmitterHandle} {r : Record} (e : s.recordAt h = some r) (q : Record) :
    (s.putRecord h.slot q).recordAt h = some q := by
  have k := State.recordAt_some e
  simp [State.recordAt, State.putRecord, k.1]

/-- Another entry is not touched. -/
theorem State.putRecord_other (s : State) (i k : EntryNo) (q : Record) (h : k ≠ i) :
    (s.putRecord i q).entries.get k = s.entries.get k := by
  simp [State.putRecord, Table.get_set, h]

theorem State.modifyRecord_some {s : State} {h : EmitterHandle} {r : Record} {f : Record → Record}
    (e : s.recordAt h = some r) : s.modifyRecord h f = s.putRecord h.slot (f r) := by
  simp [State.modifyRecord, e]

/-! ## The timer (R44) -/

/-- What the request of an expiry does: it is raised at once, or pending. -/
theorem State.request_eq (s : State) (e : Expiry) (due : Int) : s.request e due =
    { s with
      timer := s.timer ++ if due ≤ s.now then [] else [⟨e, due⟩]
      inFlight := s.inFlight ++ if due ≤ s.now then [.expiry e] else [] } := by
  unfold State.request State.post
  split <;> simp

/-! ## The words of an answer (R179) -/

/-- A refusal fills the result that its kind defines, and further only what it names. -/
theorem Answer.fullWords_refused {a : Answer} {h : Header} (ok : h.lengthsOk = true) (n : a.status ≠ .aborted) :
    a.fullWords h = max (definedWords h.kind.toNat a.result.items) (a.namedWords h.kind.toNat) := by
  unfold Answer.fullWords
  rw [if_pos ok]
  split <;> simp_all

/-! ## The form of a block (R168) -/

/-- A request whose encoded fields fit the longest request area fits it whole. -/
theorem bytesNeeded_le (r : Request) (h : r.encodedBytes ≤ 8 * 62) : r.bytesNeeded ≤ 8 * 62 := by
  unfold Request.bytesNeeded Request.plainBytes
  split <;> omega

/-- A block whose encoded fields are too many for its request area is refused. -/
theorem formOk_of_short (h : Header) (r : Request) (e : 8 * h.reqLen.toNat < r.encodedBytes) :
    Block.formOk ⟨h, some r⟩ = false := by
  have : ¬ r.bytesNeeded ≤ 8 * h.reqLen.toNat := by unfold Request.bytesNeeded; omega
  simp only [Block.formOk, decide_eq_false this, Bool.and_false, Bool.false_and]

/-- A block of a good header with the longest request area, whose encoded fields fit it, is of good form. -/
theorem formOk_of_longest (h : Header) (r : Request) (e : r.encodedBytes ≤ 8 * 62) (n : h.reqLen = 62)
    (f : (h.kind.toNat ≤ 21 && h.lengthsOk && !(h.suspend && h.stop) && h.flags.toNat < 32 && r.kind == h.kind &&
      r.wellEncoded) = true) : Block.formOk ⟨h, some r⟩ = true := by
  have b := bytesNeeded_le r e
  simp only [Bool.and_eq_true, decide_eq_true_eq] at f
  simp only [Block.formOk, n, Bool.and_eq_true, decide_eq_true_eq]
  exact ⟨f.1.1, ⟨f.1.2, b⟩, f.2⟩

end Sys2Proof.Machine
end

