-- ==== Sys2Proof/Laws/Holdings.lean ====
section
/-!
SUPPORT. Which fields the operations of Holdings.lean may change, and that they leave the entries of other records alone.
-/

namespace Sys2Proof

@[simp] theorem Table.set_get {α : Type} {n : Nat} (t : Table α n) (i : Fin n) : t.set i (t.get i) = t := by
  apply Table.ext_get
  intro k
  rw [Table.get_set]
  split
  · subst k; rfl
  · rfl

@[simp] theorem Table.set_set {α : Type} {n : Nat} (t : Table α n) (i : Fin n) (a b : α) : (t.set i a).set i b = t.set i b := by
  apply Table.ext_get
  intro k
  simp only [Table.get_set]
  split <;> rfl

end Sys2Proof

namespace Sys2Proof.Machine

/-! ## Folds over ports -/

/-- A fold that changes ports alone changes ports alone. -/
theorem State.foldl_ports {α : Type} (f : State → α → State) (h : ∀ (s : State) a, f s a = { s with ports := (f s a).ports })
    (xs : List α) (s : State) : xs.foldl f s = { s with ports := (xs.foldl f s).ports } := by
  induction xs generalizing s with
  | nil => rfl
  | cons a xs ih =>
    rw [List.foldl_cons, ih (f s a), h s a]

theorem State.leavePorts_frame (s : State) (ps : List Port) (h : EmitterHandle) :
    s.leavePorts ps h = { s with ports := (s.leavePorts ps h).ports } :=
  State.foldl_ports (fun (s : State) p => s.leavePort p h) (fun _ _ => rfl) ps s

theorem State.joinPorts_frame (s : State) (ps : List Port) (h : EmitterHandle) (w : Nat) :
    s.joinPorts ps h w = { s with ports := (s.joinPorts ps h w).ports } :=
  State.foldl_ports (fun (s : State) p => s.joinPort p h w) (fun _ _ => rfl) ps s

theorem State.releaseReservations_frame (s : State) (h : EmitterHandle) (c : Change) :
    s.releaseReservations h c = { s with ports := (s.releaseReservations h c).ports } :=
  State.foldl_ports (fun (s : State) (x : PortReservation) => s.releasePort x.port h) (fun _ _ => rfl) c.portReservations s

theorem State.claimPorts_frame (s : State) (h : EmitterHandle) (cs : List PortReservation) :
    s.claimPorts h cs = { s with ports := (s.claimPorts h cs).ports } :=
  State.foldl_ports (fun (s : State) (x : PortReservation) => s.claimPort x.port h x.join x.increase) (fun _ _ => rfl) cs s

/-- A port by port change reaches each listed port once, and no other. -/
theorem State.foldl_port_get {f : PortRec → PortRec} (ps : List Port) (n : ps.Nodup) (s : State) (p : Port) :
    (ps.foldl (fun (s : State) p => s.modifyPort p f) s).ports.get p = if p ∈ ps then f (s.ports.get p) else s.ports.get p := by
  induction ps generalizing s with
  | nil => simp
  | cons q ps ih =>
    rw [List.foldl_cons, ih (List.nodup_cons.1 n).2]
    have hq := (List.nodup_cons.1 n).1
    by_cases h : p = q
    · subst h
      simp [hq, State.modifyPort]
    · simp [State.modifyPort, Table.get_set, h]

theorem portsOf_nodup (set : BitVec 8) : (portsOf set).Nodup := (List.nodup_finRange 8).filter _

theorem mem_portsOf (set : BitVec 8) (p : Port) : p ∈ portsOf set ↔ set.getLsbD p.val = true := by
  simp [portsOf]

theorem State.joinPorts_get (s : State) (set : BitVec 8) (h : EmitterHandle) (w : Nat) (p : Port) :
    (s.joinPorts (portsOf set) h w).ports.get p =
      if set.getLsbD p.val = true then (s.ports.get p).join h w else s.ports.get p := by
  have k := State.foldl_port_get (f := fun r => r.join h w) (portsOf set) (portsOf_nodup set) s p
  simp only [mem_portsOf] at k
  exact k

theorem State.leavePorts_get (s : State) (set : BitVec 8) (h : EmitterHandle) (p : Port) :
    (s.leavePorts (portsOf set) h).ports.get p =
      if set.getLsbD p.val = true then (s.ports.get p).leave h else s.ports.get p := by
  have k := State.foldl_port_get (f := fun r => r.leave h) (portsOf set) (portsOf_nodup set) s p
  simp only [mem_portsOf] at k
  exact k

/-! ## Withdrawing a change -/

theorem State.leaveApplyPlace_frame (s : State) (h : EmitterHandle) (c : Change) :
    s.leaveApplyPlace h c =
      { s with timer := (s.leaveApplyPlace h c).timer, triggers := (s.leaveApplyPlace h c).triggers } := by
  unfold State.leaveApplyPlace
  split <;> rfl

/-- A withdrawn change leaves the record without one. -/
theorem State.withdrawChange_entries {s : State} {h : EmitterHandle} {r : Record} (e : s.recordAt h = some r) :
    (s.withdrawChange h).entries = s.entries.set h.slot { s.entries.get h.slot with record := some { r with staged := none } } := by
  have k := State.recordAt_some e
  unfold State.withdrawChange
  rw [e]
  simp only
  split
  · rename_i n
    have : ({ r with staged := none } : Record) = r := by rw [← n]
    have y : ({ s.entries.get h.slot with record := some r } : Entry) = s.entries.get h.slot := by rw [← k.2]
    rw [this, y, Table.set_get]
  · rw [State.leaveApplyPlace_frame, State.releaseReservations_frame]
    rfl

theorem State.withdrawChange_frame (s : State) (h : EmitterHandle) :
    s.withdrawChange h =
      { s with
        entries := (s.withdrawChange h).entries, timer := (s.withdrawChange h).timer,
        triggers := (s.withdrawChange h).triggers, ports := (s.withdrawChange h).ports } := by
  unfold State.withdrawChange
  repeat' split
  · rfl
  · rfl
  · rw [State.leaveApplyPlace_frame, State.releaseReservations_frame]
    rfl

/-! ## Slots and references -/

theorem State.releaseSlot_frame (s : State) (h : EmitterHandle) :
    s.releaseSlot h = { s with slots := (s.releaseSlot h).slots, strayReads := (s.releaseSlot h).strayReads } := by
  unfold State.releaseSlot
  split <;> rfl

theorem State.releaseReference_frame (s : State) (c : ClipHandle) :
    s.releaseReference c =
      { s with
        clips := (s.releaseReference c).clips, units := (s.releaseReference c).units, sent := (s.releaseReference c).sent } := by
  unfold State.releaseReference
  split
  · rfl
  · split
    · unfold State.drainClip
      rw [State.setCause_frame]
      rfl
    · rfl

/-- What the giving back of a record's holdings may change. -/
theorem State.releaseHoldings_frame (s : State) (h : EmitterHandle) :
    s.releaseHoldings h =
      { s with
        entries := (s.releaseHoldings h).entries, timer := (s.releaseHoldings h).timer,
        triggers := (s.releaseHoldings h).triggers, armSet := (s.releaseHoldings h).armSet,
        grantQueue := (s.releaseHoldings h).grantQueue, slots := (s.releaseHoldings h).slots,
        strayReads := (s.releaseHoldings h).strayReads, ports := (s.releaseHoldings h).ports,
        clips := (s.releaseHoldings h).clips, units := (s.releaseHoldings h).units, sent := (s.releaseHoldings h).sent } := by
  unfold State.releaseHoldings
  split
  · rfl
  · split
    · simp only
      rw [State.releaseReference_frame, State.leavePorts_frame, State.releaseSlot_frame, State.withdrawChange_frame]
      rfl
    · rfl

/-- After the giving back, the record stands as it was, without a staged change. -/
theorem State.releaseHoldings_entries {s : State} {h : EmitterHandle} {r : Record} (e : s.recordAt h = some r)
    (k : r.state.isHolding = true) :
    (s.releaseHoldings h).entries =
      s.entries.set h.slot { s.entries.get h.slot with record := some { r with staged := none } } := by
  rw [← State.withdrawChange_entries e]
  unfold State.releaseHoldings
  rw [e]
  simp only [k, if_true]
  rw [State.releaseReference_frame, State.leavePorts_frame, State.releaseSlot_frame]
  rfl

theorem State.raiseEmitter_frame (s : State) (h : EmitterHandle) (f : EmCauses → EmCauses) :
    s.raiseEmitter h f =
      { s with
        entries := (s.raiseEmitter h f).entries, units := (s.raiseEmitter h f).units, sent := (s.raiseEmitter h f).sent } := by
  unfold State.raiseEmitter
  split
  · rfl
  · rw [State.setCause_frame]; rfl

theorem State.raiseEmitter_entries {s : State} {h : EmitterHandle} {r : Record} (e : s.recordAt h = some r)
    (f : EmCauses → EmCauses) :
    (s.raiseEmitter h f).entries =
      s.entries.set h.slot { s.entries.get h.slot with record := some { r with attention := true, causes := f r.causes } } := by
  unfold State.raiseEmitter
  rw [e]
  simp only
  rw [State.setCause_frame]
  rfl

end Sys2Proof.Machine
end

