-- ==== Sys2Proof/Laws/Stream.lean ====
section
/-!
SUPPORT. What one sample of a played sequence changes: the echo line, the record, the hand-overs at the ports. What the issue of the
next run and the completion of priming change.
-/

namespace Sys2Proof.Machine

theorem PortRec.keepHandOver_eq (a : PortRec) (h : EmitterHandle) (x : List HandOver) :
    a.keepHandOver h x = { a with members := a.members.map fun m => if m.handle = h then { m with handOver := x } else m } := by
  simp [PortRec.keepHandOver]

/-- A played sample (R34, R78): the record turned and advanced, the echo line of its slot, the hand-over at every port of its set;
every other entry, slot and port as it was. -/
theorem State.playSample_spec {s : State} {n : SlotNo} {h : EmitterHandle} {r r0 : Record} (rate : Nat) (y : Sample)
    (e : s.recordAt h = some r0) :
    (s.playSample n h r rate y).recordAt h = some { r with advance := r.advance + 1, paths := r.turnPaths rate } ∧
    s.otherEntries (s.playSample n h r rate y) h.slot ∧
    (s.playSample n h r rate y).slots =
      s.slots.set n { s.slots.get n with echo := (y :: (s.slots.get n).echo).take Config.echoSize } ∧
    (∀ p, r.ports.getLsbD p.val = true → (s.playSample n h r rate y).ports.get p =
      (s.ports.get p).keepHandOver h (r.handOver ((y :: (s.slots.get n).echo).take Config.echoSize))) ∧
    (∀ p, r.ports.getLsbD p.val = false → (s.playSample n h r rate y).ports.get p = s.ports.get p) ∧
    s.playSample n h r rate y =
      { s with
        entries := (s.playSample n h r rate y).entries, slots := (s.playSample n h r rate y).slots,
        ports := (s.playSample n h r rate y).ports } := by
  generalize hu : s.playSample n h r rate y = u
  generalize he : (y :: (s.slots.get n).echo).take Config.echoSize = echo
  have f : u = { s with
      slots := s.slots.set n { s.slots.get n with echo := echo }
      entries := s.entries.set h.slot
        { s.entries.get h.slot with record := some { r with advance := r.advance + 1, paths := r.turnPaths rate } }
      ports := u.ports } := by
    rw [← hu, ← he]
    unfold State.playSample
    simp only
    rw [State.foldl_ports (fun (s : State) p => s.modifyPort p fun a => a.keepHandOver h _) (fun _ _ => rfl)]
    rfl
  have g : ∀ p, u.ports.get p =
      if r.ports.getLsbD p.val = true then (s.ports.get p).keepHandOver h (r.handOver echo) else s.ports.get p := by
    intro p
    have k := State.foldl_port_get (f := fun a => a.keepHandOver h (r.handOver echo)) (portsOf r.ports) (portsOf_nodup r.ports)
      ((s.setSlot n { s.slots.get n with echo := echo }).putRecord h.slot
        { r with advance := r.advance + 1, paths := r.turnPaths rate }) p
    simp only [mem_portsOf] at k
    rw [← hu, ← he]
    subst he
    exact k
  have gen := (State.recordAt_some e).1
  refine ⟨?_, ?_, ?_, ?_, ?_, ?_⟩
  · rw [f]; simp [State.recordAt, gen]
  · intro k hk; rw [f]; simp [Table.get_set, hk]
  · rw [f]
  · intro p hp; rw [g, if_pos hp]
  · intro p hp; rw [g, if_neg (by rw [hp]; decide)]
  · rw [f]

/-! ## Runs and priming (R73, R77) -/

theorem State.slotView_eq {s : State} {n : SlotNo} {h : EmitterHandle} {r : Record} {c : Clip}
    (o : (s.slots.get n).owner = some h) (e : s.recordAt h = some r) (k : s.clipAt r.clip = some c) :
    s.slotView n = some (h, r, c) := by
  simp [State.slotView, o, e, k]

theorem IsRunLimit.eq {m : LoopMode} {len p limit : Nat} (h : IsRunLimit m len p limit) : limit = runLimit m len p := by
  obtain ⟨stop, a, b, c⟩ := h
  have : stop = m.seqEnd len p := by
    cases m with
    | once => exact b rfl
    | loop x y =>
      have d := c x y rfl
      simp only [LoopMode.seqEnd]
      split
      · exact d.1 (by assumption)
      · exact d.2 (by omega)
  rw [a, this]
  rfl

theorem isRunLimit_runLimit (m : LoopMode) (len p : Nat) : IsRunLimit m len p (runLimit m len p) := by
  refine ⟨m.seqEnd len p, rfl, fun e => by rw [e]; rfl, fun a b e => ?_⟩
  rw [e]
  simp only [LoopMode.seqEnd]
  constructor <;> intro h
  · rw [if_pos h]
  · rw [if_neg (by omega)]

/-- The length of a run lies within the limit, and within the room where the record does not sound. -/
theorem runLength_spec (st : EmState) (limit room choice : Nat) :
    (limit = 0 → runLength st limit room choice = 0) ∧ runLength st limit room choice ≤ limit ∧
    (0 < limit → 0 < room → 1 ≤ runLength st limit room choice) ∧
    (st.sounds = false → runLength st limit room choice ≤ room) := by
  unfold runLength
  simp only
  cases st.sounds
  · simp only [Bool.false_eq_true, if_false]
    have := Nat.mod_lt choice (y := min limit room)
    split <;> omega
  · simp only [if_true]
    have := Nat.mod_lt choice (y := limit)
    split <;> simp <;> omega

/-- What the issue of the next run does (R77): the slot and the transfer number as R77 has them, nothing else. -/
theorem State.issueRun_spec {s : State} {n : SlotNo} {h : EmitterHandle} {r : Record} {c : Clip}
    (v : s.slotView n = some (h, r, c)) : ∃ y next,
      s.issueRun n = { s with slots := s.slots.set n y, nextTag := next } ∧
      (s.slots.get n).RunIssued y s.nextTag next h r c := by
  unfold State.issueRun
  rw [v]
  simp only
  generalize hx : s.slots.get n = x
  generalize hl : runLimit r.loop c.length x.nextPos = limit
  have sp := runLength_spec r.state limit (Config.windowSize - x.window.length) (Config.runChoice s.nextTag)
  generalize runLength r.state limit (Config.windowSize - x.window.length) (Config.runChoice s.nextTag) = len at sp ⊢
  simp only [show Config.windowSize = 8192 from rfl] at sp ⊢
  split
  · rename_i q
    refine ⟨_, _, rfl, fun room lim e i => ?_⟩
    have := i.eq
    subst e
    rw [hl] at this
    subst this
    refine ⟨fun z => ?_, fun _ _ _ _ => ⟨len, by omega, sp.2.1, sp.2.2.2, fun _ => ⟨rfl, rfl⟩, fun k => by omega⟩⟩
    rcases z with z | z | z | z
    · exact absurd q.1 z
    · exact absurd q.2.1 z
    · omega
    · omega
  · rename_i q
    refine ⟨x, s.nextTag, by rw [← hx, Table.set_get], fun room lim e i => ⟨fun _ => ⟨rfl, rfl⟩, fun a b c d => ?_⟩⟩
    have := i.eq
    subst e
    rw [hl] at this
    subst this
    have := sp.2.2.1 c d
    exact ⟨len, this, sp.2.1, sp.2.2.2, fun k => absurd ⟨a, b, by omega, k⟩ q, fun _ => ⟨rfl, rfl⟩⟩

/-- What the arrival of a discarded read does to its slot (R77, R82): no read is in flight, and the next run may be issued. -/
theorem State.disregardRead_spec {s : State} {n : SlotNo} {h : EmitterHandle} {r : Record} {c : Clip}
    (v : s.slotView n = some (h, r, c)) : ∃ y next,
      s.disregardRead n = { s with slots := s.slots.set n y, nextTag := next } ∧
      StreamSlot.RunIssued { s.slots.get n with fetch := none } y s.nextTag next h r c := by
  have w : (s.setSlot n { s.slots.get n with fetch := none }).slotView n = some (h, r, c) := by
    unfold State.slotView at v ⊢
    simp only [State.setSlot, Table.get_set_self]
    exact v
  obtain ⟨y, next, e, i⟩ := State.issueRun_spec w
  refine ⟨y, next, ?_, by simpa [State.setSlot] using i⟩
  unfold State.disregardRead
  rw [e]
  simp [State.setSlot]

/-- What the priming check does (R73). -/
theorem State.checkPrimed_spec {s : State} {n : SlotNo} {h : EmitterHandle} {r : Record} {c : Clip}
    (v : s.slotView n = some (h, r, c)) :
    s.checkPrimed n = { s with
      slots := s.slots.set n ((s.slots.get n).marked r c)
      inFlight := s.inFlight ++ (s.slots.get n).primedReport h r c } := by
  unfold State.checkPrimed
  rw [v]
  simp only
  generalize hx : s.slots.get n = x
  have : (r.state = .priming ∧ x.primed = false ∧
      (Config.windowSize ≤ x.window.length ∨ (r.loop = .once ∧ c.length ≤ x.nextPos))) ↔ x.completesPriming r c = true := by
    simp [StreamSlot.completesPriming, Config.windowSize, and_assoc]
  simp only [this]
  unfold StreamSlot.marked StreamSlot.primedReport
  split
  · rename_i q
    simp [State.setSlot, State.post, q]
  · rename_i q
    simp only [Bool.not_eq_true] at q
    simp only [q, Bool.or_false, List.append_nil]
    rw [← hx, Table.set_get]

/-- The completion of priming and the issue of the next run, one after the other (R73, R77). -/
theorem State.primeAndIssue_spec {s : State} {n : SlotNo} {h : EmitterHandle} {r : Record} {c : Clip}
    (v : s.slotView n = some (h, r, c)) : ∃ y next,
      (s.checkPrimed n).issueRun n = { s with
        slots := s.slots.set n y, inFlight := s.inFlight ++ (s.slots.get n).primedReport h r c, nextTag := next } ∧
      ((s.slots.get n).marked r c).RunIssued y s.nextTag next h r c := by
  have p := State.checkPrimed_spec v
  have v' : (s.checkPrimed n).slotView n = some (h, r, c) := by
    have o : ((s.slots.get n).marked r c).owner = (s.slots.get n).owner := rfl
    rw [p]
    unfold State.slotView at v ⊢
    simp only [Table.get_set_self, o]
    exact v
  obtain ⟨y, next, e, i⟩ := State.issueRun_spec v'
  refine ⟨y, next, ?_, ?_⟩
  · rw [e, p]; simp
  · rw [p] at i; simpa using i

end Sys2Proof.Machine
end

