-- ==== Sys2Proof/Laws/Changes.lean ====
section
/-!
SUPPORT. What the apply of a change does (R29, R82, R102 to R104), what its withdrawal and its numbering do (R94, R98, R100), and
what its claims do (R99).
-/

namespace Sys2Proof.Machine

/-! ## The record -/

/-- The fade position that a path is bound with is the one of R27. -/
theorem State.fadeEntry_entered (s : State) (v : PathVals) : s.FadeEntered v (s.fadeEntry v) := by
  unfold State.fadeEntry
  refine ⟨fun e => by rw [e], fun z k e f => by simp [e, f, FadeCurve.entryPos]⟩

/-- Position by position, the paths after a new list (R29, R35). -/
theorem State.replacePaths_spec (s : State) (vs : List PathVals) (ps : List Path) :
    (s.replacePaths ps vs).map (·.vals) = vs ∧ (s.replacePaths ps vs).length = vs.length ∧
    ∀ (i : Nat) (x : PathVals), vs[i]? = some x →
      (∀ p, ps[i]? = some p → (s.replacePaths ps vs)[i]? =
        some { p with vals := x, pos := if x.fade = p.vals.fade then p.pos else s.fadeEntry x }) ∧
      (ps.length ≤ i → (s.replacePaths ps vs)[i]? = some ⟨x, s.fadeEntry x, 0, none⟩) := by
  induction vs generalizing ps with
  | nil => cases ps <;> simp [State.replacePaths]
  | cons v vs ih =>
    cases ps with
    | nil =>
      have k := ih []
      simp only [State.replacePaths]
      refine ⟨by rw [List.map_cons, k.1]; rfl, by rw [List.length_cons, k.2.1]; rfl, fun i x e => ⟨by simp, fun _ => ?_⟩⟩
      cases i with
      | zero => simp at e; subst e; rfl
      | succ i => simpa using (k.2.2 i x (by simpa using e)).2 (by simp)
    | cons p ps =>
      have k := ih ps
      simp only [State.replacePaths]
      refine ⟨by rw [List.map_cons, k.1]; rfl, by rw [List.length_cons, k.2.1]; rfl, fun i x e => ?_⟩
      cases i with
      | zero => simp at e; subst e; simp [State.rebindPath]
      | succ i =>
        have := k.2.2 i x (by simpa using e)
        simpa using this

theorem State.changedRecord_tookChange (s : State) (r : Record) (v : NewValues) : r.TookChange (s.changedRecord r v) v := by
  refine ⟨rfl, ?_⟩
  unfold State.changedRecord Record.pathVals
  cases v.paths with
  | none => rfl
  | some vs => simpa using (s.replacePaths_spec vs r.paths).1

theorem State.changedRecord_paths (s : State) (r : Record) (v : NewValues) : s.PathsReplaced r (s.changedRecord r v) v := by
  constructor
  · intro e; simp [State.changedRecord, e]
  · intro vs e
    have := s.replacePaths_spec vs r.paths
    simp only [State.changedRecord, e]
    refine ⟨this.2.1, fun i x hx => ?_⟩
    have k := this.2.2 i x hx
    cases hp : r.paths[i]? with
    | none =>
      exact ⟨_, fun p a => (by cases a), fun a => ⟨k.2 a, s.fadeEntry_entered x⟩⟩
    | some p =>
      refine ⟨if x.fade = p.vals.fade then p.pos else s.fadeEntry x, fun p' a => ?_, fun a => ?_⟩
      · cases a
        exact ⟨k.1 p hp, fun b => if_pos b, fun b => by rw [if_neg b]; exact s.fadeEntry_entered x⟩
      · rw [List.getElem?_eq_none a] at hp; cases hp

/-! ## The timer and the ports -/

theorem State.changeStop_spec (s : State) (h : EmitterHandle) (v : NewValues) :
    s.changeStop h v.stop =
      { s with timer := v.stopTimer s.now h s.timer, inFlight := s.inFlight ++ v.stopRaised s.now h } := by
  unfold State.changeStop NewValues.stopTimer NewValues.stopRaised
  cases hv : v.stop with
  | keep => simp
  | remove => simp [State.withdraw]
  | set t =>
    show (s.withdraw fun e => e.isStopOf h).request (.stopPoint h t) (ticks t) = _
    unfold State.request
    by_cases q : ticks t ≤ s.now
    · rw [if_pos (show ticks t ≤ (s.withdraw fun e => e.isStopOf h).now from q)]
      simp [q, State.post, State.withdraw]
    · rw [if_neg (show ¬ ticks t ≤ (s.withdraw fun e => e.isStopOf h).now from q)]
      simp [q, State.withdraw]

/-- A fold over ports that changes each by a function of its own. -/
theorem State.foldl_each_port {g : Port → PortRec → PortRec} {f : State → Port → State}
    (hf : ∀ s p, f s p = s.modifyPort p (g p)) (ps : List Port) (n : ps.Nodup) (s : State) :
    (ps.foldl f s) = { s with ports := (ps.foldl f s).ports } ∧
    ∀ p, (ps.foldl f s).ports.get p = if p ∈ ps then g p (s.ports.get p) else s.ports.get p := by
  induction ps generalizing s with
  | nil => simp
  | cons q ps ih =>
    rw [List.foldl_cons]
    have k := ih (List.nodup_cons.1 n).2 (f s q)
    have hq := (List.nodup_cons.1 n).1
    refine ⟨?_, fun p => ?_⟩
    · rw [k.1, hf]; rfl
    · rw [k.2 p, hf]
      by_cases e : p = q
      · subst e; simp [hq, State.modifyPort, State.setPort]
      · simp [State.modifyPort, State.setPort, Table.get_set, e]

theorem State.changePorts_spec (s : State) (h : EmitterHandle) (r : Record) (v : NewValues) :
    s.changePorts h r.ports (v.portsAfter r) (v.weightAfter r) =
      { s with ports := (s.changePorts h r.ports (v.portsAfter r) (v.weightAfter r)).ports } ∧
    ∀ p, (s.changePorts h r.ports (v.portsAfter r) (v.weightAfter r)).ports.get p = (s.ports.get p).told h r v p := by
  have k := State.foldl_each_port (g := fun p a => a.told h r v p) (f := fun s p =>
    match r.ports.getLsbD p.val, (v.portsAfter r).getLsbD p.val with
    | false, true => s.joinPort p h (v.weightAfter r)
    | true, true => s.weighPort p h (v.weightAfter r)
    | true, false => s.leavePort p h
    | false, false => s) (fun s p => by
      simp only [PortRec.told, State.modifyPort, show v.ports.getD r.ports = v.portsAfter r from rfl]
      cases r.ports.getLsbD p.val <;> cases (v.portsAfter r).getLsbD p.val
      · simp [State.setPort]
      · rfl
      · rfl
      · simp [State.weighPort, State.modifyPort, PortRec.reweigh, NewValues.weightAfter, NewValues.pathsAfter])
    (List.finRange 8) (List.nodup_finRange 8) s
  refine ⟨k.1, fun p => ?_⟩
  have := k.2 p
  rw [if_pos (List.mem_finRange p)] at this
  exact this

/-! ## The slot -/

theorem StreamSlot.handed_eq (x : StreamSlot) (k : Record) (c : Clip) (b : Bool) :
    x.handed k c b = (if b then x.reorder k c.length else x).moveEnd k := by
  unfold StreamSlot.handed StreamSlot.moveEnd
  split <;> rfl

theorem State.handSlot_spec {s : State} {h : EmitterHandle} {k : Record} (e : s.recordAt h = some k) (b : Bool) :
    ∃ sent, s.SlotTold (s.handSlot h b) h k b sent ∧ (s.handSlot h b).inFlight = s.inFlight ++ sent ∧
      s.handSlot h b = { s with
        slots := (s.handSlot h b).slots, inFlight := (s.handSlot h b).inFlight, nextTag := (s.handSlot h b).nextTag } := by
  cases ho : s.slotOf h with
  | none =>
    refine ⟨[], ⟨fun _ => ?_, fun n c y a => by rw [ho] at a; cases a⟩, ?_, ?_⟩ <;> simp [State.handSlot, ho]
  | some n =>
    have on : (s.slots.get n).owner = some h := by have := List.find?_some ho; simpa using this
    cases hc : s.clipAt k.clip with
    | none =>
      have : s.slotView n = none := by simp [State.slotView, on, e, hc]
      refine ⟨[], ⟨fun a => (by rw [ho] at a; cases a), fun n c y _ a => (by rw [hc] at a; cases a)⟩, ?_, ?_⟩ <;>
        simp [State.handSlot, ho, this]
    | some c =>
      have v := State.slotView_eq on e hc
      generalize hx : s.slots.get n = x at *
      generalize hy : x.handed k c b = y
      have yo : y.owner = x.owner := by
        rw [← hy, StreamSlot.handed_eq]; unfold StreamSlot.moveEnd StreamSlot.reorder; split <;> split <;> rfl
      generalize hz : s.setSlot n y = z'
      have v' : z'.slotView n = some (h, k, c) := by
        rw [← hz]
        apply State.slotView_eq
        · simp [State.setSlot, yo, on]
        · exact e
        · exact hc
      obtain ⟨z, next, i, j⟩ := State.primeAndIssue_spec v'
      have ex : s.handSlot h b = { s with
          slots := s.slots.set n z, inFlight := s.inFlight ++ y.primedReport h k c, nextTag := next } := by
        have : s.handSlot h b = (z'.checkPrimed n).issueRun n := by
          simp only [State.handSlot, ho, v, hx, ← StreamSlot.handed_eq, hy]
          rw [hz]
        rw [this, i, ← hz]
        simp [State.setSlot]
      rw [ex]
      refine ⟨_, ⟨fun a => (by rw [ho] at a; cases a), ?_⟩, rfl, rfl⟩
      intro n' c' y' a a2 a3
      rw [ho] at a; cases a
      rw [hc] at a2; cases a2
      rw [hx, hy] at a3; subst a3
      refine ⟨rfl, ?_, fun m hm => by simp [Table.get_set, hm]⟩
      rw [← hz] at j
      simpa [State.setSlot] using j

/-! ## The apply -/

/-- What the apply of new values does (R102). -/
theorem State.applyValues_spec {s : State} {h : EmitterHandle} {r : Record} (e : s.recordAt h = some r) (v : NewValues) :
    s.Applied (s.applyValues h v) h r v := by
  unfold State.applyValues
  rw [e]
  simp only
  generalize hk : s.changedRecord r v = k
  have tk : r.TookChange k v := hk ▸ s.changedRecord_tookChange r v
  have pk : s.PathsReplaced r k v := hk ▸ s.changedRecord_paths r v
  rw [State.changeStop_spec]
  generalize ha : ({ s.putRecord h.slot k with
      timer := v.stopTimer (s.putRecord h.slot k).now h (s.putRecord h.slot k).timer
      inFlight := (s.putRecord h.slot k).inFlight ++ v.stopRaised (s.putRecord h.slot k).now h } : State) = a
  have p := a.changePorts_spec h r v
  generalize a.changePorts h r.ports (v.portsAfter r) (v.weightAfter r) = b at p
  obtain ⟨p1, p2⟩ := p
  have bk : b.recordAt h = some k := by rw [p1, ← ha]; exact State.recordAt_putRecord e k
  obtain ⟨sent, t, i, f⟩ := State.handSlot_spec bk v.loop.isSome
  generalize b.handSlot h v.loop.isSome = u at t i f
  refine ⟨k, sent, ?_, tk, pk, ?_, ?_, ?_, ?_, ?_, ?_⟩
  · rw [f]; exact bk
  · intro j hj; rw [f, p1, ← ha]; exact State.putRecord_other s _ _ _ hj
  · rw [f, p1, ← ha]; rfl
  · intro q; rw [f]; show b.ports.get q = _; rw [p2 q, ← ha]; rfl
  · have o : b.slotOf h = s.slotOf h := by rw [p1, ← ha]; rfl
    have cc : ∀ c, b.clipAt c = s.clipAt c := by intro c; rw [p1, ← ha]; rfl
    have sl : b.slots = s.slots := by rw [p1, ← ha]; rfl
    have nt : b.nextTag = s.nextTag := by rw [p1, ← ha]; rfl
    unfold State.SlotTold at t ⊢
    rw [o, sl, nt] at t
    simp only [cc] at t
    exact t
  · rw [i, p1, ← ha]; rfl
  · have x : u.entries = b.entries ∧ u.timer = b.timer ∧ u.ports = b.ports := by rw [f]; exact ⟨rfl, rfl, rfl⟩
    refine f.trans ?_
    rw [x.1, x.2.1, x.2.2, p1, ← ha]
    rfl

theorem State.leaveApplyPlace_spec (s : State) (h : EmitterHandle) (c : Change) :
    s.PlaceLeft (s.leaveApplyPlace h c) h c := by
  unfold State.leaveApplyPlace
  refine ⟨fun e => ?_, fun t e => ?_, fun t e => ?_⟩ <;> rw [e]
  · exact ⟨rfl, rfl⟩
  · refine ⟨?_, rfl⟩
    simp only [State.withdraw]
    congr 1
  · refine ⟨rfl, fun k hk => by simp [State.setTrigger, Table.get_set, hk], by simp [State.setTrigger]⟩

/-- What the apply of a staged change does. -/
theorem State.applyStaged_spec {s : State} {h : EmitterHandle} {r : Record} {d : Change} (e : s.recordAt h = some r)
    (f : r.staged = some d) : s.AppliedStaged (s.applyStaged h) h r d := by
  refine ⟨s.leaveApplyPlace h d, s.leaveApplyPlace_spec h d, s.leaveApplyPlace_frame h d, ?_⟩
  have : s.applyStaged h = (s.leaveApplyPlace h d).applyValues h d.new := by simp [State.applyStaged, e, f]
  rw [this]
  apply State.applyValues_spec
  rw [State.leaveApplyPlace_frame]
  exact e

theorem State.applyStaged_none {s : State} {h : EmitterHandle} (f : ∀ r, s.recordAt h = some r → r.staged = none) :
    s.applyStaged h = s := by
  unfold State.applyStaged
  split
  · rfl
  · rename_i r e
    simp [f r e]

/-- What the apply of every change of a list does (R61). -/
theorem State.foldl_applyStaged (hs : List EmitterHandle) (s : State) :
    s.AppliedInTurn (hs.foldl (fun s h => s.applyStaged h) s) hs := by
  induction hs generalizing s with
  | nil => rfl
  | cons h hs ih =>
    rw [List.foldl_cons]
    exact ⟨_, ih _, fun r d e f => State.applyStaged_spec e f, fun f => State.applyStaged_none f⟩

/-! ## Checks, numbering and claims -/

/-- An accepted MODIFY names an accepted record, and an AT apply point is still to come (R95). -/
theorem State.checkModify_ok {s : State} {l : Lane} {q : ModifyReq} {x : ModifyFound} (h : s.checkModify l q = .ok x) :
    s.recordAt x.handle = some x.record ∧ ∀ t, x.apply = some (.at t) → s.now < ticks t := by
  unfold State.checkModify at h
  simp only [bind, need_bind_ok, want_bind_ok, needPorts_bind_ok] at h
  obtain ⟨_, a, ha, _, e, he, r, hr, h⟩ := h
  obtain ⟨_, _, _, c, hc, _, _, _, _, h⟩ := h
  simp only [pure, Except.pure] at h
  split at h
  · simp [Except.bind] at h
  · simp only [need_bind_ok, needPorts_bind_ok] at h
    obtain ⟨_, _, it, h⟩ := h
    cases h
    refine ⟨hr, fun t e => ?_⟩
    simp only at e
    subst e
    simp [State.modifyInTime] at it
    exact it.1

theorem PortRec.unclaim_idem (a : PortRec) (h : EmitterHandle) : (a.unclaim h).unclaim h = a.unclaim h := by
  simp [PortRec.unclaim]

/-- What the release of a change's reservations leaves at each port (R100). -/
theorem State.foldl_releasePort (ys : List PortReservation) (h : EmitterHandle) (s : State) (p : Port) :
    (ys.foldl (fun s (x : PortReservation) => s.releasePort x.port h) s).ports.get p =
      { s.ports.get p with reservations :=
        if (ys.any fun y => y.port == p) = true then (s.ports.get p).reservations.filter fun x => x.handle != h
        else (s.ports.get p).reservations } := by
  induction ys generalizing s with
  | nil => simp
  | cons y ys ih =>
    rw [List.foldl_cons, ih]
    by_cases e : p = y.port
    · subst e
      have : (s.releasePort y.port h).ports.get y.port = (s.ports.get y.port).unclaim h := by
        simp [State.releasePort, State.modifyPort, State.setPort]
      rw [this]
      simp only [PortRec.unclaim, List.any_cons, beq_self_eq_true, Bool.true_or, if_true]
      split <;> simp
    · have : (s.releasePort y.port h).ports.get p = s.ports.get p := by
        simp [State.releasePort, State.modifyPort, State.setPort, Table.get_set, e]
      rw [this]
      have ne : (y.port == p) = false := by simpa using fun k => e k.symm
      simp only [List.any_cons, ne, Bool.false_or]

/-- The withdrawal of a present staged change (R30, R98): its place left, its reservations released, and the record without it. -/
theorem State.withdrawChange_spec {s : State} {h : EmitterHandle} {r : Record} {d : Change} (e : s.recordAt h = some r)
    (f : r.staged = some d) :
    (s.withdrawChange h).recordAt h = some { r with staged := none } ∧ s.PlaceLeft (s.withdrawChange h) h d ∧
    ∀ p, (s.withdrawChange h).ports.get p = d.releasedAt h p (s.ports.get p) := by
  have x : s.withdrawChange h = ((s.releaseReservations h d).leaveApplyPlace h d).putRecord h.slot { r with staged := none } := by
    simp [State.withdrawChange, e, f]
  have fr := State.releaseReservations_frame s h d
  refine ⟨?_, ?_, ?_⟩
  · rw [x]
    apply State.recordAt_putRecord (r := r)
    rw [State.leaveApplyPlace_frame, fr]
    exact e
  · have := (s.releaseReservations h d).leaveApplyPlace_spec h d
    rw [x]
    rw [fr] at this ⊢
    exact this
  · intro p
    rw [x]
    show ((s.releaseReservations h d).leaveApplyPlace h d).ports.get p = _
    rw [State.leaveApplyPlace_frame]
    exact State.foldl_releasePort _ _ _ _

/-- The figures of R97 are those of the state without the record's staged change. -/
theorem State.withdrawChange_withdrawn {s : State} {h : EmitterHandle} {r : Record} (e : s.recordAt h = some r) :
    s.Withdrawn (s.withdrawChange h) h r := by
  refine ⟨fun n => by simp [State.withdrawChange, e, n], fun d f => ?_⟩
  have k := State.withdrawChange_spec e f
  refine ⟨k.1, fun j hj => ?_, k.2.1, k.2.2, ?_⟩
  · rw [State.withdrawChange_entries e, Table.get_set_ne _ _ _ _ hj]
  · exact s.withdrawChange_frame h

/-- The numbering of a change and the supersession of a present one (R94, R98). -/
theorem State.numbered_spec {s : State} {h : EmitterHandle} {r : Record} (e : s.recordAt h = some r) (n : Nat) :
    s.Numbered ((s.modifyRecord h fun r => { r with changeCounter := n }).supersede h) h r n := by
  rw [State.modifyRecord_some e]
  have e1 := State.recordAt_putRecord e { r with changeCounter := n }
  generalize hz : s.putRecord h.slot { r with changeCounter := n } = z at e1
  have zo : s.otherEntries z h.slot := fun k hk => by rw [← hz]; exact State.putRecord_other _ _ _ _ hk
  cases hs : r.staged with
  | none =>
    have : z.supersede h = z := by simp [State.supersede, e1, hs]
    rw [this]
    refine ⟨zo, fun _ => ⟨by simpa [hs] using e1, by rw [← hz]; rfl⟩, fun d k => by simp [hs] at k⟩
  | some d =>
    have sup : z.supersede h = ((z.withdrawChange h).modifyRecord h fun k =>
        { k with supersededCount := satSucc 65535 k.supersededCount }).raiseEmitter h .addSuperseded := by
      simp [State.supersede, e1, hs]
    have w := State.withdrawChange_spec e1 (d := d) (by exact hs)
    have wf := z.withdrawChange_frame h
    have we := State.withdrawChange_entries e1
    rw [sup]
    generalize z.withdrawChange h = y at w wf we
    obtain ⟨w1, w2, w3⟩ := w
    rw [State.modifyRecord_some w1]
    have e2 := State.recordAt_putRecord w1
      { r with changeCounter := n, staged := none, supersededCount := satSucc 65535 r.supersededCount }
    generalize ha : y.putRecord h.slot
      { r with changeCounter := n, staged := none, supersededCount := satSucc 65535 r.supersededCount } = a at e2
    have au : a.units = s.units := by rw [← ha]; show y.units = _; rw [wf, ← hz]; rfl
    have zp : z.ports = s.ports := by rw [← hz]; rfl
    have zt : z.timer = s.timer ∧ z.triggers = s.triggers := by rw [← hz]; exact ⟨rfl, rfl⟩
    have ex : a.raiseEmitter h .addSuperseded = (a.putRecord h.slot
        { r with
          changeCounter := n, staged := none, supersededCount := satSucc 65535 r.supersededCount
          attention := true, causes := { r.causes with superseded := true } }).setCause r.lane .emitterAttention := by
      unfold State.raiseEmitter
      rw [e2]
      rfl
    rw [ex]
    have e3 := State.recordAt_putRecord e2
      { r with
        changeCounter := n, staged := none, supersededCount := satSucc 65535 r.supersededCount
        attention := true, causes := { r.causes with superseded := true } }
    generalize hb : a.putRecord h.slot
      { r with
        changeCounter := n, staged := none, supersededCount := satSucc 65535 r.supersededCount
        attention := true, causes := { r.causes with superseded := true } } = b at e3 ⊢
    have bu : b.units = s.units := by rw [← hb]; exact au
    have sf := State.setCause_frame b r.lane .emitterAttention
    have su := State.setCause_units b r.lane .emitterAttention
    generalize b.setCause r.lane .emitterAttention = c at sf su
    refine ⟨?_, fun k => (by rw [hs] at k; cases k), ?_⟩
    · intro k hk
      rw [sf]
      show b.entries.get k = _
      rw [← hb, State.putRecord_other _ _ _ _ hk, ← ha, State.putRecord_other _ _ _ _ hk, we]
      rw [Table.get_set_ne _ _ _ _ hk]
      exact zo k hk
    · intro d' hd'
      obtain rfl : d = d' := by rw [hs] at hd'; cases hd'; rfl
      refine ⟨?_, ?_, ?_, ?_, ?_, ?_⟩
      · rw [sf]; exact e3
      · unfold State.PlaceLeft at w2 ⊢
        rw [zt.1, zt.2] at w2
        have ct : c.timer = y.timer ∧ c.triggers = y.triggers := by rw [sf, ← hb, ← ha]; exact ⟨rfl, rfl⟩
        rw [ct.1, ct.2]
        exact w2
      · intro p
        have : c.ports.get p = y.ports.get p := by rw [sf, ← hb, ← ha]; rfl
        rw [this, w3 p, zp]
      · rw [su, bu]; simp [Cause.bit]
      · intro k hk; rw [su, bu]; simp [Table.get_set, hk]
      · rw [sf, ← hb, ← ha]
        rw [wf, ← hz]
        rfl

/-- What the claims of a change leave at each port, each port being claimed at once (R99). -/
theorem State.claimPorts_spec (h : EmitterHandle) (cs : List PortReservation) (nd : (cs.map (·.port)).Nodup) (s : State) :
    (∀ p, (∀ y ∈ cs, y.port ≠ p) → (s.claimPorts h cs).ports.get p = s.ports.get p) ∧
    (∀ y ∈ cs, (s.claimPorts h cs).ports.get y.port = (s.ports.get y.port).claim h y.join y.increase) := by
  induction cs generalizing s with
  | nil => simp [State.claimPorts]
  | cons c cs ih =>
    simp only [List.map_cons, List.nodup_cons] at nd
    have k := ih nd.2 (s.claimPort c.port h c.join c.increase)
    have e : s.claimPorts h (c :: cs) = (s.claimPort c.port h c.join c.increase).claimPorts h cs := rfl
    rw [e]
    refine ⟨fun p hp => ?_, fun y hy => ?_⟩
    · rw [k.1 p fun y hy => hp y (by simp [hy])]
      have := hp c (by simp)
      simp [State.claimPort, State.modifyPort, State.setPort, Table.get_set, this.symm]
    · rcases List.mem_cons.1 hy with rfl | hy
      · rw [k.1 y.port fun z hz => fun e => nd.1 (e ▸ List.mem_map_of_mem hz)]
        simp [State.claimPort, State.modifyPort, State.setPort]
      · rw [k.2 y hy]
        have : y.port ≠ c.port := fun e => nd.1 (e ▸ List.mem_map_of_mem hy)
        simp [State.claimPort, State.modifyPort, State.setPort, Table.get_set, this]

/-- The claims of a change name each port once (R99). -/
theorem NewValues.claims_nodup (v : NewValues) (r : Record) : ((v.claims r).map (·.port)).Nodup := by
  have : ((v.claims r).map (·.port)).Sublist (portsOf (v.portsAfter r)) := by
    unfold NewValues.claims
    induction portsOf (v.portsAfter r) with
    | nil => exact List.Sublist.refl _
    | cons p ps ih =>
      rw [List.filterMap_cons]
      simp only
      split
      · exact ih.cons _
      · rename_i y e
        have : y.port = p := by
          split at e
          · cases e; rfl
          · cases e
        rw [List.map_cons, this]
        exact ih.cons_cons _
  exact this.nodup (portsOf_nodup _)

end Sys2Proof.Machine
end

