-- ==== Sys2Proof/Laws/Memory.lean ====
section
/-!
SUPPORT. Clip memory: every operation keeps the canonical form, a written byte reads back, and a byte outside what was written
reads as before.
-/

namespace Sys2Proof.Machine

/-! ## One byte -/

theorem Memory.read_write (m : Memory) (a b : Nat) (x : Byte) :
    (m.write a x).read b = if b = a then some x else m.read b := by
  induction m with
  | nil => by_cases h : a = b <;> simp [Memory.write, Memory.read, h, eq_comm]
  | cons c m ih =>
    unfold Memory.write
    split
    · by_cases h : a = b <;> simp [Memory.read, h, eq_comm]
    · split
      · rename_i h
        subst h
        by_cases h : c.1 = b
        · simp [Memory.read, h]
        · simp [Memory.read, h, Ne.symm h]
      · rename_i h'
        by_cases hb : c.1 = b
        · subst hb
          simp [Memory.read, Ne.symm h']
        · simp [Memory.read, hb, ih]

/-- The addresses of a memory after a write are the written one and the old ones. -/
theorem Memory.mem_write {m : Memory} {a : Nat} {x : Byte} {c : Host.Cell} (h : c ∈ m.write a x) : c.1 = a ∨ c ∈ m := by
  induction m with
  | nil => simp [Memory.write] at h; simp [h]
  | cons d m ih =>
    unfold Memory.write at h
    split at h
    · simp at h
      rcases h with rfl | h
      · exact .inl rfl
      · exact .inr (by simpa using h)
    · split at h
      · simp at h
        rcases h with rfl | h
        · exact .inl rfl
        · exact .inr (by simp [h])
      · simp at h
        rcases h with rfl | h
        · exact .inr (by simp)
        · rcases ih h with h | h
          · exact .inl h
          · exact .inr (by simp [h])

/-- A write keeps the addresses strictly rising. -/
theorem Memory.pairwise_write {m : Memory} (a : Nat) (x : Byte) (h : m.Pairwise (fun c d => c.1 < d.1)) :
    (m.write a x).Pairwise (fun c d => c.1 < d.1) := by
  induction m with
  | nil => simp [Memory.write]
  | cons c m ih =>
    rw [List.pairwise_cons] at h
    unfold Memory.write
    split
    · rename_i lt
      rw [List.pairwise_cons, List.pairwise_cons]
      refine ⟨?_, h.1, h.2⟩
      intro d hd
      rcases List.mem_cons.mp hd with rfl | hd
      · exact lt
      · exact lt_trans lt (h.1 d hd)
    · split
      · rename_i eq
        rw [List.pairwise_cons]
        exact ⟨fun d hd => eq ▸ h.1 d hd, h.2⟩
      · rename_i nlt ne
        rw [List.pairwise_cons]
        refine ⟨?_, ih h.2⟩
        intro d hd
        rcases Memory.mem_write hd with e | hd
        · omega
        · exact h.1 d hd

/-- A write inside the 4 GiB keeps the canonical form. -/
theorem Memory.wf_write {m : Memory} (a : Nat) (x : Byte) (h : m.wf) (lt : a < 2 ^ 32) : (m.write a x).wf := by
  refine ⟨Memory.pairwise_write a x h.1, ?_⟩
  intro c hc
  rcases Memory.mem_write hc with e | hc
  · omega
  · exact h.2 c hc

/-! ## Consecutive bytes -/

/-- Writing bytes inside the 4 GiB keeps the canonical form. -/
theorem Memory.wf_writeBytes {m : Memory} {a : Nat} {xs : List Byte} (h : m.wf) (le : a + xs.length ≤ 2 ^ 32) :
    (m.writeBytes a xs).wf := by
  induction xs generalizing m a with
  | nil => simpa [Memory.writeBytes] using h
  | cons x xs ih =>
    simp only [List.length_cons] at le
    exact ih (Memory.wf_write a x h (by omega)) (by omega)

theorem Memory.read_writeBytes (m : Memory) (a b : Nat) (xs : List Byte) :
    (m.writeBytes a xs).read b = if a ≤ b ∧ b < a + xs.length then xs[b - a]? else m.read b := by
  induction xs generalizing m a with
  | nil => simp [Memory.writeBytes]
  | cons x xs ih =>
    rw [Memory.writeBytes, ih, Memory.read_write, List.length_cons]
    by_cases e : b = a
    · subst e
      rw [if_neg (by omega), if_pos rfl, if_pos (by omega), Nat.sub_self]
      rfl
    · rw [if_neg e]
      by_cases h : a + 1 ≤ b ∧ b < a + 1 + xs.length
      · rw [if_pos h, if_pos (by omega), show b - a = (b - (a + 1)) + 1 by omega, List.getElem?_cons_succ]
      · rw [if_neg h, if_neg (by omega)]

/-- Reset lists nothing, which is in canonical form. -/
theorem State.reset_clipMem_wf : State.reset.clipMem.wf := ⟨List.Pairwise.nil, fun _ h => by cases h⟩

/-- Samples of a clip stand one after another, 4 bytes each. -/
theorem sampleAddr_eq (base p : Nat) : sampleAddr base p = base * 65536 + 4 * p := by
  have := Nat.div_add_mod p 16384
  simp only [sampleAddr, Config.pageSamples]
  omega

/-- The issue of a host read changes nothing but what has been sent. -/
theorem State.issueHostRead_eq (s : State) : s.issueHostRead = { s with sent := s.issueHostRead.sent } := by
  unfold State.issueHostRead
  repeat' split
  all_goals rfl

/-- A copy writes its bytes from the next position, and no other byte of clip memory. -/
theorem State.clipByte_copyBytes (s : State) (x : Copy) (c : Clip) (bytes : List Byte) (a : Nat) :
    (s.copyBytes x c bytes).clipByte a =
      match (if sampleAddr c.basePage x.copied ≤ a ∧ a < sampleAddr c.basePage x.copied + bytes.length
        then bytes[a - sampleAddr c.basePage x.copied]? else s.clipMem.read a) with
      | some b => b
      | none => Config.unsetClipByte s.powerOns a := by
  unfold State.clipByte State.copyBytes
  rw [State.issueHostRead_eq]
  simp only
  rw [Memory.read_writeBytes]
  all_goals rfl

end Sys2Proof.Machine
end

