-- ==== Sys2Proof/Laws/Clips.lean ====
section
/-!
SUPPORT. What the operations of the clip catalog and the load engine do to a clip's slot, and what they leave.
-/

namespace Sys2Proof.Machine

theorem State.clipAt_some {s : State} {h : ClipHandle} {c : Clip} (e : s.clipAt h = some c) :
    (s.clips.get h.slot).gen = h.gen ∧ (s.clips.get h.slot).clip = some c := by
  unfold State.clipAt at e
  simp only at e
  split at e
  · exact ⟨‹_›, e⟩
  · simp at e

/-- The clip that a put leaves is read back under its handle. -/
theorem State.clipAt_putClip {s : State} {h : ClipHandle} {c : Clip} (e : s.clipAt h = some c) (d : Clip) :
    (s.putClip h.slot d).clipAt h = some d := by
  have k := State.clipAt_some e
  simp [State.clipAt, State.putClip, k.1]

theorem State.putClip_other (s : State) (i : ClipNo) (c : Clip) : s.otherClips (s.putClip i c) i := by
  intro k hk
  simp [State.putClip, Table.get_set, hk]

theorem State.findClip_ok {s : State} {raw : RawHandle} {c : Clip} (e : s.clipAt raw.clip = some c) :
    s.findClip raw = .ok (raw.clip, c) := by
  simp [State.findClip, want, e, bind, Except.bind, pure, Except.pure]

/-- A load that is dispatched changes the engine, the queue and the number of the next transfer, and sends a host read. -/
theorem State.dispatchLoad_frame (s : State) :
    s.dispatchLoad =
      { s with
        copy := s.dispatchLoad.copy, loadQueue := s.dispatchLoad.loadQueue, nextTag := s.dispatchLoad.nextTag
        sent := s.dispatchLoad.sent } := by
  unfold State.dispatchLoad
  split
  · rw [State.issueHostRead_eq]; rfl
  · rfl

/-- An engine that is COPYING takes no further load. -/
theorem State.dispatchLoad_busy {s : State} {x : Copy} (e : s.copy = some x) : s.dispatchLoad = s := by
  unfold State.dispatchLoad
  split
  · simp_all
  · rfl

/-- An empty queue gives the engine nothing. -/
theorem State.dispatchLoad_empty {s : State} (e : s.loadQueue = []) : s.dispatchLoad = s := by
  unfold State.dispatchLoad
  split
  · simp_all
  · rfl

/-- An IDLE engine takes the head of the queue. -/
theorem State.dispatchLoad_idle {s : State} {x : Load} {xs : List Load} (e : s.copy = none) (q : s.loadQueue = x :: xs) :
    s.dispatchLoad =
      { s with
        copy := some ⟨x, 0, crcInit, s.nextTag⟩, loadQueue := xs, nextTag := s.nextTag + 1
        sent := s.dispatchLoad.sent } := by
  unfold State.dispatchLoad
  rw [e, q]
  simp only
  rw [State.issueHostRead_eq]
  rfl

/-- The first host read of a load that is dispatched goes to its source address, for the bytes of the whole clip (R137). -/
theorem State.dispatchLoad_reads {s : State} {x : Load} {xs : List Load} {c : Clip} (e : s.copy = none)
    (q : s.loadQueue = x :: xs) (k : s.clipAt x.clip = some c) (n : 0 < c.length) :
    s.dispatchLoad.sent = s.sent ++ [.hostRead s.nextTag x.source (4 * c.length)] := by
  have k' : (State.bumpTag { s with copy := some ⟨x, 0, crcInit, s.nextTag⟩, loadQueue := xs }).clipAt x.clip = some c := k
  unfold State.dispatchLoad
  rw [e, q]
  simp [State.issueHostRead, State.bumpTag, Copy.nextAddress, State.send] at k' ⊢
  rw [k']
  simp [n]

/-- A LOADING clip leaves LOADING. -/
theorem State.leaveLoading_loading {s : State} {h : ClipHandle} {c : Clip} (e : s.clipAt h = some c) (l : c.state = .loading)
    (st : ClipState) (crc : Option (BitVec 32)) :
    s.leaveLoading h st crc = s.putClip h.slot { c with state := st, computedCrc := crc } := by
  simp [State.leaveLoading, e, l]

theorem State.leaveLoading_frame (s : State) (h : ClipHandle) (st : ClipState) (crc : Option (BitVec 32)) :
    s.leaveLoading h st crc = { s with clips := (s.leaveLoading h st crc).clips } := by
  unfold State.leaveLoading
  split
  · split <;> rfl
  · rfl

end Sys2Proof.Machine
end

