-- ==== Sys2Proof/Laws/Engine.lean ====
section
/-!
SUPPORT. What the abort of a unit does to everything but the unit (R139, R172).
-/

namespace Sys2Proof.Machine

/-- The dropping of one lane's loads leaves the others where they are. -/
theorem State.findLoad_drop (s : State) (l k : Lane) (h : k ≠ l) :
    (s.dropLoad fun y => y.lane == l).findLoad (fun x => x.lane == k) = s.findLoad (fun x => x.lane == k) := by
  have q : (s.loadQueue.filter fun x => !(x.lane == l)).find? (fun x => x.lane == k) =
      s.loadQueue.find? (fun x => x.lane == k) := by
    rw [List.find?_filter]
    congr 1; funext x
    by_cases e : x.lane = k
    · simp [e, h]
    · simp [e]
  unfold State.dropLoad State.findLoad
  simp only [q]
  cases s.copy with
  | none => rfl
  | some x =>
    by_cases e : x.load.lane = l
    · have : ¬ x.load.lane = k := fun f => h (f ▸ e)
      simp [Option.filter, e, h.symm]
    · simp [Option.filter, e]

/-- The end of a lane's load (R139). -/
theorem State.abortLoad_spec (s : State) (l : Lane) :
    s.abortLoad l = { s with
      clips := (s.abortLoad l).clips, loadQueue := (s.abortLoad l).loadQueue, copy := (s.abortLoad l).copy } ∧
    ∀ k, k ≠ l → (s.abortLoad l).findLoad (fun x => x.lane == k) = s.findLoad (fun x => x.lane == k) := by
  unfold State.abortLoad
  split
  · refine ⟨by rw [State.leaveLoading_frame]; rfl, fun k hk => ?_⟩
    rw [State.leaveLoading_frame]
    exact State.findLoad_drop s l k hk
  · exact ⟨rfl, fun _ _ => rfl⟩

/-- The write of ABORTED that is issued (R172). -/
theorem State.abortedWrite_issued (s : State) (l : Lane) : ∃ w, s.AbortedWrite l s.nextTag w ∧
    s.writeAborted l = { s with writes := s.writes ++ [w], nextTag := s.nextTag + 1 } := by
  unfold State.writeAborted State.issueWrite
  refine ⟨_, ?_, rfl⟩
  refine ⟨rfl, rfl, rfl, rfl, rfl, ?_, ?_⟩
  · intro b q hb ha
    have r : s.abortedResult l ((s.units.get l).block.bind (·.area)) = .copied (s.copiedFor l) := by
      simp [hb, ha, State.abortedResult]
    refine ⟨r, fun ok => ?_⟩
    have hd : (s.units.get l).header = b.header := by simp [RequestUnit.header, hb]
    have lo : b.header.lengthsOk = true := by
      simp only [Block.formOk, Bool.and_eq_true] at ok; exact ok.1.1.1.2
    have kd : b.header.kind = 9 := by
      simp only [Block.formOk, ha, Bool.and_eq_true] at ok
      have := ok.2.1.1
      have : Request.kind (.loadClip q) = b.header.kind := by simpa using this
      rw [← this]; rfl
    simp only [r, hd, Answer.fullWords, lo, if_true, truncates, kd]
    refine ⟨by simp, ?_⟩
    simp only [show ((9 : BitVec 8) != 18) = true by decide, Bool.and_true]
    by_cases z : b.header.resLen = 0
    · simp [z]
    · have : b.header.resLen.toNat ≠ 0 := fun e => z (BitVec.eq_of_toNat_eq (by simpa using e))
      have e1 : decide (b.header.resLen.toNat < 1) = false := by simpa using by omega
      exact e1.trans (decide_eq_false z).symm
  · intro hn
    have r : s.abortedResult l ((s.units.get l).block.bind (·.area)) = .empty := by
      unfold State.abortedResult
      cases hb : (s.units.get l).block with
      | none => simp
      | some b =>
        simp only [Option.bind_some]
        cases ha : b.area with
        | none => rfl
        | some q => cases q <;> first | rfl | exact absurd ha (hn b _ hb)
    simp only [r, Answer.fullWords]
    refine ⟨trivial, ?_, ?_⟩ <;> split <;> simp [truncates]

/-- What the abort of a unit does beside it (R172): the write it issues, the completion it drops, the walk it ends. -/
theorem State.abortUnit_spec (s : State) (l : Lane) :
    (∀ k, k ≠ l → (s.abortUnit l).units.get k = s.units.get k ∧ (s.abortUnit l).copiedFor k = s.copiedFor k) ∧
    (s.inPhase l .held = true → ∃ w, s.AbortedWrite l s.nextTag w ∧ (s.abortUnit l).writes = s.writes ++ [w] ∧
      (s.abortUnit l).nextTag = s.nextTag + 1) ∧
    (s.inPhase l .held = false → (s.abortUnit l).writes = s.writes ∧ (s.abortUnit l).nextTag = s.nextTag) ∧
    (s.abortUnit l).inFlight = s.inFlight.filter (fun m => !(s.inPhase l .held && m.isHeldDone l)) ∧
    (s.abortUnit l).walk = (if (s.units.get l).state = .active .handed then none else s.walk) := by
  have nf : s.inPhase l .held = false → s.inFlight.filter (fun m => !(s.inPhase l .held && m.isHeldDone l)) = s.inFlight := by
    intro h; rw [h]; simp
  have easy : ∀ (st : UnitState), s.inPhase l .held = false → (s.units.get l).state ≠ .active .handed →
    s.abortUnit l = s.moveUnit l st →
    (∀ k, k ≠ l → (s.abortUnit l).units.get k = s.units.get k ∧ (s.abortUnit l).copiedFor k = s.copiedFor k) ∧
    (s.inPhase l .held = true → ∃ w, s.AbortedWrite l s.nextTag w ∧ (s.abortUnit l).writes = s.writes ++ [w] ∧
      (s.abortUnit l).nextTag = s.nextTag + 1) ∧
    (s.inPhase l .held = false → (s.abortUnit l).writes = s.writes ∧ (s.abortUnit l).nextTag = s.nextTag) ∧
    (s.abortUnit l).inFlight = s.inFlight.filter (fun m => !(s.inPhase l .held && m.isHeldDone l)) ∧
    (s.abortUnit l).walk = (if (s.units.get l).state = .active .handed then none else s.walk) := by
    intro st h1 h2 h3
    rw [nf h1, h3, if_neg h2, h1]
    exact ⟨fun k hk => ⟨by simp [State.moveUnit, State.setUnit, Table.get_set, hk], rfl⟩, fun h => (by cases h),
      fun _ => ⟨rfl, rfl⟩, rfl, rfl⟩
  cases hs : (s.units.get l).state with
  | idle =>
    have h1 : s.inPhase l .held = false := by simp [State.inPhase, hs]
    have h3 : s.abortUnit l = s := by simp [State.abortUnit, hs]
    rw [nf h1, h3, h1]
    exact ⟨fun k hk => ⟨rfl, rfl⟩, fun h => (by cases h), fun _ => ⟨rfl, rfl⟩, rfl, by simp⟩
  | suspended => rw [← hs]; exact easy .idle (by simp [State.inPhase, hs]) (by simp [hs]) (by simp [State.abortUnit, hs])
  | faulted d => rw [← hs]; exact easy .idle (by simp [State.inPhase, hs]) (by simp [hs]) (by simp [State.abortUnit, hs])
  | active p =>
    by_cases c : p = .held
    · subst c
      have h1 : s.inPhase l .held = true := by simp [State.inPhase, hs]
      have h3 : s.abortUnit l = ((s.writeAborted l).endHeld l).moveUnit l .idle := by simp [State.abortUnit, hs]
      obtain ⟨w, aw, we⟩ := s.abortedWrite_issued l
      have al := (s.writeAborted l).abortLoad_spec l
      rw [h3]
      unfold State.endHeld State.abortPorts
      simp only
      generalize (s.writeAborted l).abortLoad l = z at al
      obtain ⟨a1, a2⟩ := al
      refine ⟨fun k hk => ⟨?_, ?_⟩, fun _ => ⟨w, aw, ?_, ?_⟩, fun h => (by rw [h1] at h; cases h), ?_, ?_⟩
      · simp only [State.moveUnit, State.setUnit, Table.get_set, hk, if_false]; rw [a1, we]
      · unfold State.copiedFor
        generalize hy : State.moveUnit { z with
          ports := z.ports.map fun r => r.dropHeld l, inFlight := z.inFlight.filter fun m => !m.isHeldDone l } l .idle = y
        have e1 : y.findLoad (fun x => x.lane == k) = s.findLoad (fun x => x.lane == k) := by
          have : y.findLoad (fun x => x.lane == k) = z.findLoad (fun x => x.lane == k) := by rw [← hy]; unfold State.findLoad; rfl
          rw [this, a2 k hk, we]
          unfold State.findLoad
          rfl
        have e2 : (z.inFlight.filter fun m => !m.isHeldDone l).find? (fun m => m.isHeldDone k) =
            s.inFlight.find? (fun m => m.isHeldDone k) := by
          rw [List.find?_filter]
          have : z.inFlight = s.inFlight := by rw [a1, we]
          rw [this]
          congr 1; funext m
          unfold Message.isHeldDone
          cases m with
          | heldDone j a n =>
            by_cases e : j = k
            · subst e; simp [hk]
            · simp [e]
          | _ => simp
        have e3 : y.inFlight = z.inFlight.filter fun m => !m.isHeldDone l := by rw [← hy]; rfl
        rw [e1, e3, e2]
      · show z.writes = _; rw [a1, we]
      · show z.nextTag = _; rw [a1, we]
      · rw [h1]; show (z.inFlight.filter fun m => !m.isHeldDone l) = _; rw [a1, we]; simp
      · show z.walk = _; rw [a1, we]; simp
    · by_cases d : p = .handed
      · subst d
        have h1 : s.inPhase l .held = false := by simp [State.inPhase, hs]
        have h3 : s.abortUnit l = ({ s with walk := none } : State).moveUnit l .idle := by simp [State.abortUnit, hs]
        rw [nf h1, h3, h1]
        exact ⟨fun k hk => ⟨by simp [State.moveUnit, State.setUnit, Table.get_set, hk], rfl⟩, fun h => (by cases h),
          fun _ => ⟨rfl, rfl⟩, rfl, by simp [State.moveUnit, State.setUnit]⟩
      · rw [← hs]
        apply easy .idle (by simp [State.inPhase, hs, c]) (by simp [hs, d])
        unfold State.abortUnit; rw [hs]
        cases p <;> first | rfl | exact absurd rfl c | exact absurd rfl d

/-- The write depends on the unit and the copied samples alone. -/
theorem State.abortedWrite_congr {s t : State} {l : Lane} {tag : Nat} {w : HostWrite} (a : t.units.get l = s.units.get l)
    (b : t.copiedFor l = s.copiedFor l) (h : t.AbortedWrite l tag w) : s.AbortedWrite l tag w := by
  unfold State.AbortedWrite at h ⊢
  rw [a, b] at h
  exact h

end Sys2Proof.Machine
end

