-- ==== Sys2Proof/Laws/Heads.lean ====
section
/-!
SUPPORT. What an exchange and a head fault change.
-/

namespace Sys2Proof.Machine

/-- A port's rate and clock kind stay when its record keeps its clock source. -/
theorem State.portRate_setPort {s : State} {p : Port} {r : PortRec} (h : r.clock = (s.ports.get p).clock) (k : Port) :
    (s.setPort p r).portRate k = s.portRate k ∧ (s.setPort p r).runsExternal k = s.runsExternal k := by
  have c : ∀ k, ((s.setPort p r).ports.get k).clock = (s.ports.get k).clock := by
    intro k
    simp only [State.setPort, Table.get_set]
    split
    · subst k; exact h
    · rfl
  simp only [State.portRate, State.clockRate, State.runsExternal, c, and_self]

/-- The beginning of an exchange: the port's tag and exchange, and the command that is sent. -/
theorem State.beginExchange_eq (s : State) (p : Port) (kind : ExchangeKind) (f : ExchangeFor) (b : Bool) :
    s.beginExchange p kind f b =
      { s with
        ports := s.ports.set p { s.ports.get p with
          tag := (s.ports.get p).tag + 1
          exchange := some ⟨kind, (s.ports.get p).tag + 1, f, s.refTime + Config.answerPeriods, s.sceneTime, b⟩ }
        sent := s.sent ++ [match kind with
          | .probe => .probe p ((s.ports.get p).tag + 1)
          | .setRate => .setRate p ((s.ports.get p).tag + 1) (s.portRate p) (s.runsExternal p)] } := by
  cases kind <;> rfl

theorem State.beginExchange_frame (s : State) (p : Port) (kind : ExchangeKind) (f : ExchangeFor) (b : Bool) :
    s.beginExchange p kind f b =
      { s with ports := (s.beginExchange p kind f b).ports, sent := (s.beginExchange p kind f b).sent } := by
  rw [State.beginExchange_eq]

theorem State.raisePort_eq (s : State) (p : Port) (add : PortCauses → PortCauses) :
    s.raisePort p add =
      { s with
        ports := s.ports.set p { s.ports.get p with attention := true, causes := add (s.ports.get p).causes }
        units := s.units.set (s.ports.get p).owner { s.units.get (s.ports.get p).owner with
          summary := (s.units.get (s.ports.get p).owner).summary ||| Cause.portAttention.bit }
        sent := (s.raisePort p add).sent } := by
  conv => lhs; rw [State.raisePort, State.setCause_eq]
  rfl

/-- A head fault of a READY part: the port's fault, with PORT_FAULT and the owner's lane cause. -/
theorem State.headFault_ready {s : State} (h : s.phase = .ready) (p : Port) (c : FaultCondition) (n : Nat) :
    s.headFault p c n =
      { s with
        ports := s.ports.set p { (s.ports.get p).faulted c n s.sceneTime with
          attention := true, causes := { (s.ports.get p).causes with portFault := true } }
        units := s.units.set (s.ports.get p).owner { s.units.get (s.ports.get p).owner with
          summary := (s.units.get (s.ports.get p).owner).summary ||| Cause.portAttention.bit }
        sent := (s.headFault p c n).sent } := by
  have e : s.headFault p c n = (s.setPort p ((s.ports.get p).faulted c n s.sceneTime)).raisePort p .addPortFault := by
    simp [State.headFault, h]
  conv => lhs; rw [e, State.raisePort_eq]
  simp only [State.setPort, Table.get_set_self, Table.set_set, PortRec.faulted, PortCauses.addPortFault]
  rw [e]
  rfl

/-- The message that setting a cause sends follows from the units alone. -/
theorem State.setCause_sent_congr {s t : State} (hu : t.units = s.units) (hs : t.sent = s.sent) (l : Lane) (c : Cause) :
    (t.setCause l c).sent = (s.setCause l c).sent := by
  rw [State.setCause, State.writeCauses_eq, State.setCause, State.writeCauses_eq]
  simp [hu, hs]

/-- Attention raised at a port: the port's causes and PORT_ATTENTION of its owner, where nothing before has touched the units. -/
theorem State.raisePort_sets {s t : State} {p : Port} {o : Lane} (f : PortCauses → PortCauses) (hu : t.units = s.units)
    (hs : t.sent = s.sent) (ho : (t.ports.get p).owner = o) :
    s.PortAttentionSet (t.raisePort p f) o ∧
    (t.raisePort p f).ports = t.ports.set p { t.ports.get p with attention := true, causes := f (t.ports.get p).causes } ∧
    t.raisePort p f =
      { t with
        ports := (t.raisePort p f).ports, units := (t.raisePort p f).units, sent := (t.raisePort p f).sent } := by
  subst ho
  refine ⟨⟨?_, ?_, ?_⟩, ?_, ?_⟩
  · rw [State.raisePort_eq]; simp [hu]
  · intro k hk; rw [State.raisePort_eq]; simp [hu, Table.get_set, hk]
  · unfold State.raisePort
    simp only
    rw [State.setCause_sent_congr (s := s)]
    · exact hu
    · exact hs
  · rw [State.raisePort_eq]
  · rw [State.raisePort_eq]

/-- A head fault of a READY part: the port's fault with PORT_FAULT, and PORT_ATTENTION of its owner. -/
theorem State.headFault_sets {s t : State} {p : Port} {o : Lane} (c : FaultCondition) (n : Nat) (hp : t.phase = .ready)
    (hu : t.units = s.units) (hs : t.sent = s.sent) (ho : (t.ports.get p).owner = o) :
    s.PortAttentionSet (t.headFault p c n) o ∧
    (t.headFault p c n).ports = t.ports.set p { (t.ports.get p).faulted c n t.sceneTime with
      attention := true, causes := { (t.ports.get p).causes with portFault := true } } ∧
    t.headFault p c n =
      { t with
        ports := (t.headFault p c n).ports, units := (t.headFault p c n).units, sent := (t.headFault p c n).sent } := by
  have e : t.headFault p c n = (t.setPort p ((t.ports.get p).faulted c n t.sceneTime)).raisePort p .addPortFault := by
    simp [State.headFault, hp]
  obtain ⟨a, b, d⟩ := State.raisePort_sets (s := s) (t := t.setPort p ((t.ports.get p).faulted c n t.sceneTime)) (p := p) (o := o)
    .addPortFault (by simpa using hu) (by simpa using hs) (by simp [State.setPort, PortRec.faulted, ho])
  rw [e]
  refine ⟨a, ?_, ?_⟩
  · rw [b]; simp [State.setPort, PortRec.faulted, PortCauses.addPortFault]
  · rw [d]; rfl

/-- Exchanges that begin on several ports: each of them, and what is sent, in their order. -/
theorem State.foldl_beginExchange (kind : ExchangeKind) (f : ExchangeFor) (ps : List Port) (n : ps.Nodup) (s : State) :
    let t := ps.foldl (fun s p => s.beginExchange p kind f false) s
    t = { s with ports := t.ports, sent := t.sent } ∧
    (∀ p, t.ports.get p = if p ∈ ps then { s.ports.get p with
          tag := (s.ports.get p).tag + 1
          exchange := some ⟨kind, (s.ports.get p).tag + 1, f, s.refTime + 50000, s.sceneTime, false⟩ } else s.ports.get p) ∧
    t.sent = s.sent ++ ps.map fun p => (match kind with
          | .probe => .probe p ((s.ports.get p).tag + 1)
          | .setRate => .setRate p ((s.ports.get p).tag + 1) (s.portRate p) (s.runsExternal p)) := by
  induction ps generalizing s with
  | nil => simp
  | cons q ps ih =>
    have ih := ih (List.nodup_cons.1 n).2 (s.beginExchange q kind f false)
    have nq := (List.nodup_cons.1 n).1
    simp only [List.foldl_cons]
    refine ⟨?_, ?_, ?_⟩
    · rw [ih.1]
      rw [State.beginExchange_frame s q]
    · intro p
      rw [ih.2.1]
      rw [State.beginExchange_eq]
      simp only [Table.get_set]
      by_cases e : p = q
      · subst e; simp [nq, Config.answerPeriods]
      · simp [e, List.mem_cons]
    · rw [ih.2.2]
      have r : ∀ p, (s.beginExchange q kind f false).portRate p = s.portRate p ∧ (s.beginExchange q kind f false).runsExternal p = s.runsExternal p := by
        intro p
        rw [State.beginExchange_eq]
        exact State.portRate_setPort (s := s) (p := q) (r := { s.ports.get q with
          tag := (s.ports.get q).tag + 1
          exchange := some ⟨kind, (s.ports.get q).tag + 1, f, s.refTime + Config.answerPeriods, s.sceneTime, false⟩ }) rfl p
      rw [List.map_cons, State.beginExchange_eq]
      simp only [List.append_assoc, List.singleton_append, List.append_cancel_left_eq, List.cons.injEq]
      refine ⟨by cases kind <;> first | rfl | trivial, ?_⟩
      apply List.map_congr_left
      intro p hp
      have : p ≠ q := fun e => nq (e ▸ hp)
      simp only [Table.get_set, this, if_false]
      have r := r p
      rw [State.beginExchange_eq] at r
      cases kind with
      | probe => rfl
      | setRate => simp only [r]

end Sys2Proof.Machine
end

