-- ==== Sys2Proof/Laws/Starts.lean ====
section
/-!
SUPPORT. What taking a lead does (R51), and all that the start of a record does (State.Started; R18, R49 to R53).
-/

namespace Sys2Proof.Machine

/-- A record that the lead of `time` covers leaves the arm set for the grant queue with its start-time expiry (R51). -/
theorem State.leadRecord_armed {a : State} {h : EmitterHandle} {r : Record} {time : BitVec 64} (hr : a.recordAt h = some r)
    (q : r.state = .armed ∧ r.startPoint = some (.at time)) : a.leadRecord h time = { a with
              entries := (a.putRecord h.slot { r with state := .waiting, startRef := some (ticks time) }).entries
              armSet := a.armSet.filter fun k => k != h
              grantQueue := a.grantQueue ++ [h]
              timer := (a.timer.filter fun x => !(x.kind == .startLead h time)) ++
                  if a.now < ticks time then [⟨.startTime h, ticks time⟩] else []
              inFlight := a.inFlight ++ if a.now < ticks time then [] else [.expiry (.startTime h)] } := by
  unfold State.leadRecord
  rw [hr]; simp only; rw [if_pos q]
  unfold State.becomeWaiting
  have e1 : State.recordAt (({ a with armSet := a.armSet.filter fun k => k != h } : State).withdraw
      fun e => e == .startLead h time) h = some r := hr
  rw [State.modifyRecord_some e1]
  rw [State.request_eq]
  simp only [State.joinQueue, State.withdraw, State.putRecord, State.setEntry, State.now]
  by_cases t : ticks time ≤ (a.sceneTime.toNat : Int)
  · have t' : ¬ (a.sceneTime.toNat : Int) < ticks time := by omega
    simp [t, t']
  · have t' : (a.sceneTime.toNat : Int) < ticks time := by omega
    simp [t, t']

/-- A handle stands armed at a time when its record is ARMED with that start point. -/
theorem State.armedAt_iff (a : State) (time : BitVec 64) (h : EmitterHandle) : a.armedAt time h = true ↔
    ∃ r, a.recordAt h = some r ∧ (r.state = .armed ∧ r.startPoint = some (.at time)) := by
  unfold State.armedAt
  constructor
  · intro ar
    split at ar
    · rename_i r hr; simp at ar; exact ⟨r, hr, ar⟩
    · cases ar
  · rintro ⟨r, a, b, c⟩; simp [a, b, c]

/-- A record that the lead of `time` does not cover is left. -/
theorem State.leadRecord_unarmed {a : State} {h : EmitterHandle} {time : BitVec 64} (n : a.armedAt time h = false) :
    a.leadRecord h time = a := by
  unfold State.leadRecord
  cases hr : a.recordAt h with
  | none => rfl
  | some r =>
    simp only; rw [if_neg]; intro q
    have := (State.armedAt_iff a time h).2 ⟨r, hr, q⟩
    rw [n] at this; cases this

/-- A record put at one handle leaves what every other handle names. -/
theorem State.recordAt_putRecord_ne {a : State} {h g : EmitterHandle} {r r' : Record} (e : a.recordAt h = some r) (n : g ≠ h) :
    (a.putRecord h.slot r').recordAt g = a.recordAt g := by
  have gg := (State.recordAt_some e).1
  by_cases sl : g.slot = h.slot
  · have : g.gen ≠ h.gen := fun e => n (by rcases g with ⟨a, b⟩; rcases h with ⟨c, d⟩; simp only at sl e; rw [sl, e])
    have : (a.entries.get h.slot).gen ≠ g.gen := by rw [gg]; exact this.symm
    simp [State.recordAt, State.putRecord, State.setEntry, sl, this]
  · simp [State.recordAt, State.putRecord, State.setEntry, Table.get_set, sl]

/-- What a lead taken before its time does to the handles of a list (R51), whether or not one stands in it twice. -/
theorem State.foldl_leadRecord (time : BitVec 64) : ∀ (hs : List EmitterHandle) (a : State), a.now < ticks time →
    ∃ u, u = hs.foldl (fun s h => s.leadRecord h time) a ∧
      (∀ g r, g ∈ hs → a.armedAt time g = true → a.recordAt g = some r →
        u.recordAt g = some { r with state := .waiting, startRef := some (ticks time) } ∧
            ⟨.startTime g, ticks time⟩ ∈ u.timer ∧
        g ∈ u.grantQueue) ∧
      (∀ g, a.armedAt time g = false → u.recordAt g = a.recordAt g) ∧
      (∀ x ∈ a.timer, (∀ k, x.kind ≠ .startLead k time) → x ∈ u.timer) ∧
      (∀ x ∈ a.grantQueue, x ∈ u.grantQueue) ∧
      (∀ i, (∀ j ∈ hs, j.slot = i → a.armedAt time j = false) → u.entries.get i = a.entries.get i) ∧
      u = { a with entries := u.entries, armSet := u.armSet, grantQueue := u.grantQueue, timer := u.timer } := by
  intro hs
  induction hs with
  | nil => intro a _; refine ⟨a, rfl, ?_, ?_, fun x hx _ => hx, ?_, ?_, ?_⟩ <;> simp
  | cons h hs ih =>
    intro a na
    by_cases d : a.armedAt time h = true
    · obtain ⟨r, hr, q⟩ := (State.armedAt_iff a time h).1 d
      have lr := State.leadRecord_armed hr q
      rw [if_pos na, if_pos na] at lr
      generalize hb : a.leadRecord h time = b at lr
      have bo : ∀ g, g ≠ h → b.recordAt g = a.recordAt g := fun g hg => by rw [lr]; exact State.recordAt_putRecord_ne hr hg
      have bs : b.recordAt h = some { r with state := .waiting, startRef := some (ticks time) } := by
        rw [lr]; exact State.recordAt_putRecord hr _
      have bd : b.armedAt time h = false := by unfold State.armedAt; rw [bs]; rfl
      have bao : ∀ g, g ≠ h → b.armedAt time g = a.armedAt time g := fun g hg => by unfold State.armedAt; rw [bo g hg]
      obtain ⟨u, u0, u1, u2, u3, u4, u5, u6⟩ := ih b (by rw [lr]; exact na)
      refine ⟨u, by rw [List.foldl_cons, hb]; exact u0, ?_, ?_, ?_, ?_, ?_, ?_⟩
      · intro g r' hg ag hr'
        by_cases e : g = h
        · subst e
          rw [u2 _ bd, bs]; rw [hr] at hr'; cases hr'
          refine ⟨rfl, u3 _ (by rw [lr]; simp) (by simp), u4 _ (by rw [lr]; simp)⟩
        · rcases List.mem_cons.1 hg with k | k
          · exact absurd k e
          · exact u1 g r' k (by rw [bao g e]; exact ag) (by rw [bo g e]; exact hr')
      · intro g hg
        have e : g ≠ h := by intro e; subst e; rw [d] at hg; cases hg
        rw [u2 g (by rw [bao g e]; exact hg), bo g e]
      · intro x hx hk
        refine u3 x ?_ hk
        rw [lr]; simp only [List.mem_append, List.mem_filter]
        exact Or.inl ⟨hx, by simpa using hk h⟩
      · intro x hx; exact u4 x (by rw [lr]; simp [hx])
      · intro i hi
        have hne : h.slot ≠ i := fun e => by have := hi h (by simp) e; rw [d] at this; cases this
        rw [u5 i, lr]
        · exact State.putRecord_other _ _ _ _ (fun e => hne e.symm)
        · intro j hj js
          have e : j ≠ h := fun e => hne (by rw [← e]; exact js)
          rw [bao j e]; exact hi j (by simp [hj]) js
      · conv => lhs; rw [u6]
        rw [lr]; simp
    · have d' : a.armedAt time h = false := by simpa using d
      obtain ⟨u, u0, u1, u2, u3, u4, u5, u6⟩ := ih a na
      refine ⟨u, by rw [List.foldl_cons, State.leadRecord_unarmed d']; exact u0, ?_, u2, u3, u4, ?_, u6⟩
      · intro g r hg ag hr
        rcases List.mem_cons.1 hg with rfl | k
        · exact absurd ag d
        · exact u1 g r k ag hr
      · intro i hi; exact u5 i fun j hj => hi j (by simp [hj])

/-- A lead taken over a list without a repetition: the handles that are due, in the order of the list (R51). -/
theorem State.foldl_leadRecord_nodup (time : BitVec 64) (due : EmitterHandle → Bool) :
    ∀ (hs : List EmitterHandle) (a : State), hs.Nodup → (∀ h ∈ hs, a.armedAt time h = due h) →
   ∃ u, u = hs.foldl (fun s h => s.leadRecord h time) a ∧
    u.armSet = a.armSet.filter (fun h => !(decide (h ∈ hs) && due h)) ∧
    u.grantQueue = a.grantQueue ++ hs.filter due ∧
    (∀ h r, h ∈ hs → due h = true → a.recordAt h = some r →
      u.recordAt h = some { r with state := .waiting, startRef := some (ticks time) }) ∧
    (∀ h, h ∉ hs → u.recordAt h = a.recordAt h) ∧
    (u.timer = (a.timer.filter fun x => !(hs.any fun h => due h && x.kind == .startLead h time)) ++
      if a.now < ticks time then (hs.filter due).map (fun h => ⟨.startTime h, ticks time⟩) else []) ∧
    (u.inFlight = a.inFlight ++
      if a.now < ticks time then [] else (hs.filter due).map fun h => Message.expiry (.startTime h)) ∧
    (∀ i, (∀ h ∈ hs, due h = true → h.slot ≠ i) → u.entries.get i = a.entries.get i) ∧
    u = { a with
      entries := u.entries, armSet := u.armSet, grantQueue := u.grantQueue, timer := u.timer, inFlight := u.inFlight } := by
  intro hs
  induction hs with
  | nil => intro a _ _; refine ⟨a, rfl, ?_, ?_, ?_, ?_, ?_, ?_, ?_, ?_⟩ <;> simp
  | cons h hs ih =>
    intro a nd ha
    have n := List.nodup_cons.1 nd
    by_cases d : due h = true
    · have ar : a.armedAt time h = true := by rw [ha h (by simp), d]
      obtain ⟨r, hr, q⟩ := (State.armedAt_iff a time h).1 ar
      have lr := State.leadRecord_armed hr q
      generalize hb : a.leadRecord h time = b at lr
      have bo : ∀ g, g ≠ h → b.recordAt g = a.recordAt g := fun g hg => by rw [lr]; exact State.recordAt_putRecord_ne hr hg
      have bs : b.recordAt h = some { r with state := .waiting, startRef := some (ticks time) } := by
        rw [lr]; exact State.recordAt_putRecord hr _
      obtain ⟨u, u0, u1, u2, u3, u4, u5, u6, u7, u8⟩ := ih b n.2 (fun g hg => by
        rw [← ha g (by simp [hg])]
        have : g ≠ h := fun e => n.1 (e ▸ hg)
        unfold State.armedAt; rw [bo g this])
      have bn : b.now = a.now := by rw [lr]; rfl
      rw [bn] at u5 u6
      refine ⟨u, by rw [List.foldl_cons, hb]; exact u0, ?_, ?_, ?_, ?_, ?_, ?_, ?_, ?_⟩
      · rw [u1, lr]; simp only [List.filter_filter]
        apply List.filter_congr; intro x _
        by_cases e : x = h
        · subst e; simp [d]
        · simp [e]
      · rw [u2, lr]; simp [d]
      · intro g r' hg dg hr'
        rcases List.mem_cons.1 hg with rfl | hm
        · rw [u4 _ n.1, bs]; rw [hr] at hr'; cases hr'; rfl
        · have : g ≠ h := fun e => n.1 (e ▸ hm)
          exact u3 g r' hm dg (by rw [bo g this]; exact hr')
      · intro g hg; simp only [List.mem_cons, not_or] at hg; rw [u4 g hg.2, bo g hg.1]
      · rw [u5, lr]
        simp only [List.filter_append, List.filter_filter, List.filter_cons, d, if_true]
        have k0 : (a.timer.filter fun x => (!(hs.any fun h => due h && x.kind == .startLead h time)) &&
            !(x.kind == .startLead h time)) =
          a.timer.filter fun x => !((h :: hs).any fun h => due h && x.kind == .startLead h time) := by
          apply List.filter_congr; intro x _; simp [d, Bool.and_comm]
        rw [k0]
        split
        · simp
        · simp
      · rw [u6, lr]; simp only [List.filter_cons, d, if_true]; split <;> simp
      · intro i hi
        rw [u7 i fun g hg => hi g (by simp [hg]), lr]
        exact State.putRecord_other _ _ _ _ (fun e => hi h (by simp) d e.symm)
      · conv => lhs; rw [u8]
        rw [lr]
    · have lr : a.leadRecord h time = a := State.leadRecord_unarmed (by rw [ha h (by simp)]; simpa using d)
      obtain ⟨u, u0, u1, u2, u3, u4, u5, u6, u7, u8⟩ := ih a n.2 (fun g hg => ha g (by simp [hg]))
      have d' : due h = false := by simpa using d
      refine ⟨u, by rw [List.foldl_cons, lr]; exact u0, ?_, ?_, ?_, ?_, ?_, ?_, ?_, u8⟩
      · rw [u1]; apply List.filter_congr; intro x _
        by_cases e : x = h
        · subst e; simp [d']
        · simp [e]
      · rw [u2]; simp [d']
      · intro g r' hg dg hr'
        rcases List.mem_cons.1 hg with rfl | hm
        · exact absurd dg d
        · exact u3 g r' hm dg hr'
      · intro g hg; simp only [List.mem_cons, not_or] at hg; exact u4 g hg.2
      · rw [u5]; simp [d']
      · rw [u6]; simp [d']
      · intro i hi; exact u7 i fun g hg => hi g (by simp [hg])

/-- A record that becomes WAITING joins the tail of the grant queue (R61). -/
theorem State.becomeWaiting_eq {s : State} {h : EmitterHandle} {r : Record} (e : s.recordAt h = some r) (x : Int) :
    s.becomeWaiting h x = { s.putRecord h.slot { r with state := .waiting, startRef := some x } with
        grantQueue := s.grantQueue ++ [h] } := by
  unfold State.becomeWaiting
  rw [State.modifyRecord_some e]; rfl

/-- In a list sorted by `f`, the values up to `n` stand before the values above it. -/
theorem takeWhile_le_eq_filter {α} (f : α → Nat) (n : Nat) (xs : List α) (h : xs.Pairwise (fun a b => f a ≤ f b)) :
    xs.takeWhile (fun k => decide (f k ≤ n)) = xs.filter (fun k => decide (f k ≤ n)) ∧
    xs.dropWhile (fun k => decide (f k ≤ n)) = xs.filter (fun k => decide (n < f k)) := by
  induction xs with
  | nil => simp
  | cons x xs ih =>
    obtain ⟨h1, h2⟩ := List.pairwise_cons.1 h
    by_cases c : f x ≤ n
    · have c' : ¬ n < f x := by omega
      simp [c, c', ih h2]
    · have c' : n < f x := by omega
      have all : ∀ y ∈ xs, n < f y := fun y hy => by have := h1 y hy; omega
      simp only [List.takeWhile_cons, List.dropWhile_cons, List.filter_cons, c, c']
      simp
      constructor
      · intro y hy; exact all y hy
      · rw [eq_comm, List.filter_eq_self]; intro y hy; simpa using all y hy

/-- All that the START part of a START or of a CREATE does (R18, R49 to R53). -/
theorem State.beginStart_started (s : State) (h : EmitterHandle) (r : Record) (p : StartPoint) (e : s.recordAt h = some r)
    (st : r.state = .staged) :
    ∃ k, s.Started (s.beginStart h p) h r k p := by
  have m1 : s.modifyRecord h (fun r => { r with startPoint := some p }) =
      s.putRecord h.slot { r with startPoint := some p } :=
      State.modifyRecord_some e
  have e1 := State.recordAt_putRecord e { r with startPoint := some p }
  have put2 : ∀ (q q' : Record), (s.putRecord h.slot q).putRecord h.slot q' = s.putRecord h.slot q' := by
    intro q q'; simp only [State.putRecord, State.setEntry, Table.get_set_self, Table.set_set]
  have oth : ∀ (q : Record) k, k ≠ h.slot → (s.putRecord h.slot q).entries.get k = s.entries.get k := by
    intro q k hk; rw [State.putRecord_other _ _ _ _ hk]
  have rec2 : ∀ q, (s.putRecord h.slot q).recordAt h = some q := fun q => State.recordAt_putRecord e q
  cases p with
  | now =>
    refine ⟨{ r with startPoint := some .now, state := .waiting, startRef := some s.now }, ?_⟩
    have b : s.beginStart h .now =
        { s.putRecord h.slot { r with startPoint := some .now, state := .waiting, startRef := some s.now } with
        grantQueue := s.grantQueue ++ [h] } := by
      simp only [State.beginStart, m1]; rw [State.becomeWaiting_eq e1, put2]; rfl
    rw [b]
    refine ⟨rec2 _, fun _ => ⟨rfl, fun k hk => oth _ k hk, rfl⟩, ?_, ?_, ?_, ?_⟩ <;> (intro t c; cases c)
  | on x =>
    refine ⟨{ r with startPoint := some (.on x), state := .armed }, ?_⟩
    have b : s.beginStart h (.on x) =
        (s.putRecord h.slot { r with startPoint := some (.on x), state := .armed }).setTrigger x
        { s.triggers.get x with armList := (s.triggers.get x).armList ++ [h] } := by
      simp only [State.beginStart, m1]; rw [State.modifyRecord_some e1, put2]; rfl
    rw [b]
    refine ⟨rec2 _, ?_, ?_, ?_, ?_, ?_⟩
    · intro c; cases c
    · intro t c; cases c
      refine ⟨rfl, fun k hk => oth _ k hk, by simp [State.setTrigger],
          fun j hj => by simp [State.setTrigger, Table.get_set, hj, State.putRecord, State.setEntry], rfl⟩
    all_goals (intro t c; cases c)
  | _ x =>
    by_cases c1 : ticks x ≤ s.now
    · refine ⟨{ r with startPoint := some (.at x), state := .waiting, startRef := some (ticks x), takenLate := true }, ?_⟩
      have b : s.beginStart h (.at x) =
          { s.putRecord h.slot
              { r with startPoint := some (.at x), state := .waiting, startRef := some (ticks x), takenLate := true }
          with grantQueue := s.grantQueue ++ [h] } := by
        simp only [State.beginStart, m1]
        rw [if_pos (by exact c1), State.modifyRecord_some e1,
            State.becomeWaiting_eq (State.recordAt_putRecord e1 _), put2, put2]; rfl
      rw [b]
      refine ⟨rec2 _, ?_, ?_, ?_, ?_, ?_⟩
      · intro c; cases c
      · intro t c; cases c
      · intro t c; cases c; intro _; exact ⟨rfl, fun k hk => oth _ k hk, rfl⟩
      · intro t c; cases c; intro n; omega
      · intro t c; cases c; intro n; omega
    · set k0 : Record := { r with startPoint := some (.at x), state := .armed, startRef := some (ticks x) } with hk0
      set b0 := (s.putRecord h.slot k0).joinArmSet h with hb0
      have r0 : b0.recordAt h = some k0 := rec2 _
      have bo : ∀ g, g ≠ h → b0.recordAt g = s.recordAt g := fun g hg => State.recordAt_putRecord_ne e hg
      have ato : ∀ g, g ≠ h → (s.putRecord h.slot k0).armTime g = s.armTime g := fun g hg => by
        unfold State.armTime; rw [State.recordAt_putRecord_ne e hg]
      have ath : (s.putRecord h.slot k0).armTime h = x.toNat := by unfold State.armTime; rw [rec2]
      have aset : h ∉ s.armSet → s.armSet.Pairwise (fun a b => s.armTime a ≤ s.armTime b) →
          b0.armSet = s.armSet.filter (fun j => decide (s.armTime j ≤ x.toNat)) ++
              h :: s.armSet.filter (fun j => decide (x.toNat < s.armTime j)) := by
        intro nh pw
        have pw' : s.armSet.Pairwise (fun a b => (s.putRecord h.slot k0).armTime a ≤ (s.putRecord h.slot k0).armTime b) := by
          refine List.Pairwise.imp_of_mem ?_ pw
          intro a b ma mb hab
          rw [ato a (fun e => nh (e ▸ ma)), ato b (fun e => nh (e ▸ mb))]; exact hab
        have := takeWhile_le_eq_filter (s.putRecord h.slot k0).armTime x.toNat s.armSet pw'
        show (s.armSet.takeWhile fun k => decide ((s.putRecord h.slot k0).armTime k ≤ (s.putRecord h.slot k0).armTime h)) ++
            h :: s.armSet.dropWhile (fun k => decide ((s.putRecord h.slot k0).armTime k ≤ (s.putRecord h.slot k0).armTime h)) = _
        rw [ath, this.1, this.2]
        congr 1
        · apply List.filter_congr; intro a ma; rw [ato a (fun e => nh (e ▸ ma))]
        · congr 1
          apply List.filter_congr; intro a ma; rw [ato a (fun e => nh (e ▸ ma))]
      have hmem : h ∈ b0.armSet := by simp [hb0, State.joinArmSet]
      have hsub : ∀ g, g ∈ b0.armSet ↔ g = h ∨ g ∈ s.armSet := by
        intro g
        show g ∈ _ ++ h :: _ ↔ _
        rw [List.mem_append, List.mem_cons]
        constructor
        · rintro (q | q | q)
          · exact Or.inr (List.takeWhile_subset _ q)
          · exact Or.inl q
          · exact Or.inr ((List.dropWhile_subset _) q)
        · rintro (q | q)
          · exact Or.inr (Or.inl q)
          · rw [← List.takeWhile_append_dropWhile (p := fun k =>
              decide ((s.putRecord h.slot k0).armTime k ≤ (s.putRecord h.slot k0).armTime h))
              (l := s.armSet), List.mem_append] at q
            tauto
      by_cases c2 : ticks x - Config.leadTicks ≤ s.now
      · have b : s.beginStart h (.at x) = b0.armSet.foldl (fun s h => s.leadRecord h x) b0 := by
          simp only [State.beginStart, m1, State.modifyRecord_some e1, put2]
          rw [if_neg (by exact c1), if_pos (by exact c2)]; rfl
        have nb : b0.now < ticks x := by show s.now < _; omega
        have ah : b0.armedAt x h = true := (State.armedAt_iff _ _ _).2 ⟨k0, r0, rfl, rfl⟩
        have nsh : s.armedAt x h = false := by unfold State.armedAt; rw [e]; simp [st]
        have ao : ∀ g, g ≠ h → b0.armedAt x g = s.armedAt x g := fun g hg => by unfold State.armedAt; rw [bo g hg]
        obtain ⟨u, u0, u1, u2, u3, u4, u5, u6⟩ := State.foldl_leadRecord x b0.armSet b0 nb
        rw [b, ← u0]
        refine ⟨{ k0 with state := .waiting, startRef := some (ticks x) }, (u1 h k0 hmem ah r0).1, ?_, ?_, ?_, ?_, ?_⟩
        · intro c; cases c
        · intro t c; cases c
        · intro t c; cases c; intro n; omega
        · intro t c; cases c; intro n; simp only [Config.leadTicks] at c2; omega
        · intro t c; cases c; intro _ _
          refine ⟨rfl, ?_, ?_, (u1 h k0 hmem ah r0).2.2, (u1 h k0 hmem ah r0).2.1, ?_, ?_⟩
          · intro j q mj aj hq
            have ne : j ≠ h := by intro e; subst e; rw [nsh] at aj; cases aj
            have := u1 j q ((hsub j).2 (Or.inr mj)) (by rw [ao j ne]; exact aj) (by rw [bo j ne]; exact hq)
            exact ⟨this.2.1, this.1⟩
          · intro i hi hj
            rw [u5 i]
            · exact oth _ i hi
            · intro j mj js
              have ne : j ≠ h := by intro e; subst e; exact hi js.symm
              rw [ao j ne]
              rcases (hsub j).1 mj with m | m
              · exact absurd m ne
              · exact hj j m js
          · intro due hdue nd nh pw
            have A := aset nh pw
            have ndb : b0.armSet.Nodup := by
              rw [A]
              have := List.filter_append_perm (fun j => decide (s.armTime j ≤ x.toNat)) s.armSet
              have n2 : (fun j => !decide (s.armTime j ≤ x.toNat)) = fun j => decide (x.toNat < s.armTime j) := by
                funext j; by_cases k : s.armTime j ≤ x.toNat <;> simp [k] <;> omega
              rw [n2] at this
              have p2 : (s.armSet.filter (fun j => decide (s.armTime j ≤ x.toNat)) ++
                  h :: s.armSet.filter (fun j => decide (x.toNat < s.armTime j))).Perm
                  (h :: s.armSet) :=
                List.perm_middle.trans (this.cons h)
              exact p2.nodup_iff.2 (List.nodup_cons.2 ⟨nh, nd⟩)
            have fdue : b0.armSet.filter (b0.armedAt x) = due := by
              rw [hdue, A, List.filter_append, List.filter_cons, if_pos ah, List.filter_filter, List.filter_filter]
              have arm : ∀ g ∈ s.armSet, s.armedAt x g = true → s.armTime g = x.toNat := by
                intro g _ ag
                obtain ⟨q, a1, a2, a3⟩ := (State.armedAt_iff _ _ _).1 ag
                unfold State.armTime; rw [a1]; simp [a3]
              congr 1
              · apply List.filter_congr; intro g mg
                rw [ao g (fun e => nh (e ▸ mg))]
                cases k : s.armedAt x g
                · rfl
                · simp [arm g mg k]
              · congr 1
                rw [List.filter_eq_nil_iff]; intro g mg
                rw [ao g (fun e => nh (e ▸ mg))]
                intro k
                simp only [Bool.and_eq_true, decide_eq_true_eq] at k
                have := arm g mg k.1; omega
            obtain ⟨w, w0, w1, w2, w3, w4, w5, w6, w7, w8⟩ :=
                State.foldl_leadRecord_nodup x (b0.armedAt x) b0.armSet b0 ndb (fun _ _ => rfl)
            have uw : u = w := by rw [u0, w0]
            rw [uw]
            refine ⟨?_, ?_, ?_⟩
            · rw [w2, fdue]; rfl
            · rw [w1, A, List.filter_append, List.filter_cons]
              have hm : (decide (h ∈ b0.armSet) && b0.armedAt x h) = true := by simp [hmem, ah]
              rw [← A, hm]
              simp only [Bool.not_true, Bool.false_eq_true, if_false]
              rw [List.filter_filter, List.filter_filter]
              have G : ∀ g ∈ s.armSet, (!(decide (g ∈ b0.armSet) && b0.armedAt x g)) = !s.armedAt x g := by
                intro g mg; rw [ao g (fun e => nh (e ▸ mg))]; simp [(hsub g).2 (Or.inr mg)]
              have n2 : ∀ j, decide (x.toNat < s.armTime j) = !decide (s.armTime j ≤ x.toNat) := by
                intro j; by_cases k : s.armTime j ≤ x.toNat <;> simp [k] <;> omega
              have T := takeWhile_le_eq_filter s.armTime x.toNat s.armSet pw
              rw [List.filter_congr (q := fun a => (!s.armedAt x a) && decide (s.armTime a ≤ x.toNat))
                  (fun g mg => by rw [G g mg]),
                List.filter_congr (p := fun a => (!(decide (a ∈ b0.armSet) && b0.armedAt x a)) && decide (x.toNat < s.armTime a))
                    (q := fun a => (!s.armedAt x a) && decide (x.toNat < s.armTime a))
                    (fun g mg => by rw [G g mg])]
              rw [← List.filter_filter, ← List.filter_filter, ← T.1, ← T.2,
                  ← List.filter_append, List.takeWhile_append_dropWhile]
            · rw [w5, if_pos nb, fdue]
              congr 1
              apply List.filter_congr; intro y _
              congr 1
              rw [← fdue, List.any_filter]
          · conv => lhs; rw [u6]
            rfl
      · have b : s.beginStart h (.at x) = { b0 with timer := s.timer ++ [⟨.startLead h x, ticks x - Config.leadTicks⟩] } := by
          simp only [State.beginStart, m1, State.modifyRecord_some e1, put2]
          rw [if_neg (by exact c1), if_neg (by exact c2), State.request_eq, if_neg (by exact c2), if_neg (by exact c2)]
          simp only [List.append_nil]; rfl
        rw [b]
        refine ⟨k0, r0, ?_, ?_, ?_, ?_, ?_⟩
        · intro c; cases c
        · intro t c; cases c
        · intro t c; cases c; intro n; omega
        · intro t c; cases c; intro n
          exact ⟨rfl, fun k hk => oth _ k hk, hmem, aset, rfl⟩
        · intro t c; cases c; intro n; simp only [Config.leadTicks] at c2; omega

end Sys2Proof.Machine
end

