-- ==== Sys2Proof/Laws/Triggers.lean ====
section
/-!
SUPPORT. What a trigger setting of a SET_LANE changes (R58, R183).
-/

namespace Sys2Proof.Machine

/-- The edge events of a setting: that of the candidate under the old setting, else under the new one. -/
def settingEdges (s : State) (x : TriggerSetting) : List Message :=
  let r := s.triggers.get x.trigger
  if s.phase = .ready then
    if r.runOut s.now = true then
      if r.line = r.edge.level then [.edge x.trigger (r.completesAt s.now)] else []
    else if ({ r with edge := x.edge, qualification := x.qualification, owner := x.owner } : TriggerRec).runOut s.now = true then
      if r.line = x.edge.level then [.edge x.trigger s.now] else []
    else []
  else []

/-- The trigger after a setting: settled where its candidate has run out under the old setting or the new one. -/
def settingRecord (s : State) (x : TriggerSetting) : TriggerRec :=
  let r := s.triggers.get x.trigger
  let q := { r with edge := x.edge, qualification := x.qualification, owner := x.owner }
  if s.phase = .ready ∧ (r.runOut s.now = true ∨ q.runOut s.now = true) then
    { q with settled := r.line, candidate := none }
  else q

/-- A trigger without a candidate has none that has run out. -/
theorem TriggerRec.runOut_none (a : Edge) (b : Nat) (c : Lane) (l st : Bool) (al ap : List EmitterHandle)
    (nt : Option UnclaimedNote) (n : Int) : (TriggerRec.mk a b c l st none al ap nt).runOut n = false := rfl

/-- What one trigger setting does: the trigger's record, and the edge that its candidate may give. -/
theorem State.setTriggerSetting_eq (s : State) (x : TriggerSetting) : s.setTriggerSetting x =
    { s with triggers := s.triggers.set x.trigger (settingRecord s x), inFlight := s.inFlight ++ settingEdges s x } := by
  by_cases p : s.phase = .ready
  · by_cases r1 : (s.triggers.get x.trigger).runOut s.now = true
    · unfold State.setTriggerSetting State.qualify
      rw [if_pos ⟨p, r1⟩]
      unfold State.settle
      simp only
      have r1' : (s.triggers.get x.trigger).runOut (s.sceneTime.toNat : Int) = true := r1
      by_cases hl : (s.triggers.get x.trigger).line = (s.triggers.get x.trigger).edge.level
      · rw [if_pos hl]
        simp [State.post, State.setTrigger, State.qualifyNow, settingRecord, settingEdges, p, r1', hl,
          TriggerRec.runOut_none, State.now]
      · rw [if_neg hl]
        simp [State.setTrigger, State.qualifyNow, settingRecord, settingEdges, p, r1', hl,
          TriggerRec.runOut_none, State.now]
    · have e : s.qualify x.trigger = s := by simp [State.qualify, r1]
      simp only [State.setTriggerSetting, e]
      unfold State.qualifyNow
      simp only [p, true_and, State.setTrigger, Table.get_set_self, State.now]
      generalize hr : s.triggers.get x.trigger = r at *
      simp only [settingRecord, settingEdges, hr, p, State.now, Bool.not_eq_true] at *
      cases r2 : ({ r with edge := x.edge, qualification := x.qualification, owner := x.owner } : TriggerRec).runOut
          (s.sceneTime.toNat : Int) with
      | true =>
        unfold State.settle
        simp only [Table.get_set_self, Table.set_set, if_true, r1, Bool.false_eq_true, false_or, and_self, if_false,
          State.post, State.setTrigger]
        split <;> simp
      | false =>
        simp [r1]
  · have e : s.qualify x.trigger = s := by simp [State.qualify, p]
    simp [State.setTriggerSetting, e, State.qualifyNow, settingRecord, settingEdges, p, State.setTrigger]

/-- What the part of trigger settings does, each trigger being named once. -/
theorem State.foldl_setTriggerSetting (xs : List TriggerSetting) (n : (xs.map (·.trigger)).Nodup) (s : State) :
    let t := xs.foldl State.setTriggerSetting s
    (∀ x ∈ xs, t.triggers.get x.trigger = settingRecord s x) ∧
    (∀ k, k ∉ xs.map (·.trigger) → t.triggers.get k = s.triggers.get k) ∧
    t.inFlight = s.inFlight ++ xs.flatMap (settingEdges s) ∧ t = { s with triggers := t.triggers, inFlight := t.inFlight } := by
  induction xs generalizing s with
  | nil => simp
  | cons y ys ih =>
    simp only [List.map_cons, List.nodup_cons] at n
    have ih := ih n.2 (s.setTriggerSetting y)
    simp only [List.foldl_cons]
    have same : ∀ x ∈ ys, settingRecord (s.setTriggerSetting y) x = settingRecord s x ∧
        settingEdges (s.setTriggerSetting y) x = settingEdges s x := by
      intro x hx
      have ne : x.trigger ≠ y.trigger := fun e => n.1 (e ▸ List.mem_map_of_mem hx)
      rw [State.setTriggerSetting_eq]
      simp only [settingRecord, settingEdges, Table.get_set, ne, State.now, if_false]
      exact ⟨rfl, rfl⟩
    refine ⟨?_, ?_, ?_, ?_⟩
    · intro x hx
      rcases List.mem_cons.1 hx with rfl | hx
      · rw [ih.2.1 _ n.1, State.setTriggerSetting_eq]; simp
      · rw [ih.1 x hx, (same x hx).1]
    · intro k hk
      simp only [List.map_cons, List.mem_cons, not_or] at hk
      rw [ih.2.1 k hk.2, State.setTriggerSetting_eq]; simp [Table.get_set, hk.1]
    · rw [ih.2.2.1]
      have hi : (s.setTriggerSetting y).inFlight = s.inFlight ++ settingEdges s y := by rw [State.setTriggerSetting_eq]
      rw [hi]
      simp only [List.flatMap_cons, List.append_assoc, List.append_cancel_left_eq]
      have : ∀ (l : List TriggerSetting), (∀ x ∈ l, x ∈ ys) →
          l.flatMap (settingEdges (s.setTriggerSetting y)) = l.flatMap (settingEdges s) := by
        intro l hl
        induction l with
        | nil => rfl
        | cons z l il =>
          simp only [List.flatMap_cons]
          rw [(same z (hl z (by simp))).2, il fun x hx => hl x (by simp [hx])]
      exact this ys fun _ h => h
    · rw [ih.2.2.2]
      rw [State.setTriggerSetting_eq]

end Sys2Proof.Machine
end

