-- ==== Sys2Proof/Tests/Slice0.lean ====
section
/-!
SUPPORT. The model's own tests: an ill-formed command for each check of WellFormed.lean, values that the manual writes out, and
for every statement with hypotheses a state and operands that meet them (`meets_...`), each clause at a boundary where it has one.
-/

namespace Sys2Proof.Tests

open Sys2Proof.Machine

/-! ## Well-formedness -/

def raw (slot gen : Nat) : RawHandle := ⟨BitVec.ofNat 8 gen, BitVec.ofNat 8 slot⟩

/-- A path of weight 100 with nothing else. -/
def pathField : PathField := ⟨0, 100, 0, 0, 0, 0, ⟨0, 0⟩, 0⟩

def createReq (paths : List PathField) : CreateReq where
  clip := raw 5 1
  priority := 3
  startOffset := 0
  loop := .once
  carrier := 0
  ports := 1
  paths := paths
  start := ⟨0, 0⟩
  stop := ⟨0, 0⟩
  cue := ⟨0, 0, 0⟩

def modifyReq (apply : ApplyField) : ModifyReq where
  emitter := raw 12 3
  apply := apply
  paths := none
  carrier := some 1000
  ports := none
  loop := none
  stop := ⟨0, 0⟩
  cue := ⟨0, 0, 0⟩
  unmodifiable := false

def E12 : EmitterHandle := ⟨12, 3⟩
def noGen : EmitterHandle := ⟨12, 0⟩
def C5 : ClipHandle := ⟨5, 1⟩
def F2 : FadeHandle := ⟨2, 1⟩

theorem test_wf_accepts : (Instr.create 1 (createReq [pathField]) false).wf = true ∧ (Instr.portJoin 0 E12 8184).wf = true ∧
    (Instr.copyHostReadDone 1 [1, 2, 3, 4]).wf = true ∧ (Instr.registerWrite 0x100 0).wf = true := by decide

theorem test_wf_list_command : (Instr.listCommandInvalid 0 1).wf = false ∧ (Instr.listCommandInvalid 0 2).wf = false ∧
    (Instr.listCommandInvalid 0 3).wf = false ∧ (Instr.listCommandInvalid 0 0).wf = true := by decide

theorem test_wf_register_write : (Instr.registerWrite 0x010 1).wf = false ∧ (Instr.registerWrite 0x010 2).wf = false ∧
    (Instr.registerWrite 0x108 1).wf = false ∧ (Instr.registerWrite 0x158 1).wf = false ∧
    (Instr.registerWrite 0x1DC 1).wf = false := by decide

theorem test_wf_profile : (Instr.profileReadDone 0 (.data (List.replicate 65536 0))).wf = false ∧
    (Instr.profileReadDone 0 (.data (List.replicate 65535 0))).wf = true := by
  simp only [Instr.wf, FlashRead.wf, List.length_replicate]
  decide

theorem test_wf_path_lists : (Instr.create 1 (createReq (List.replicate 256 pathField)) false).wf = false ∧
    (Instr.modify 1 { modifyReq .now with paths := some (List.replicate 256 pathField) }).wf = false ∧
    (Instr.fetchRequestDone 1 1 (some (.create (createReq (List.replicate 256 pathField))))).wf = false ∧
    (Instr.fetchRequestDone 1 1
      (some (.modify { modifyReq .now with paths := some (List.replicate 256 pathField) }))).wf = false := by
  simp only [Instr.wf, Request.wf, pathListOk, createReq, Option.getD_some, List.length_replicate]
  decide

theorem test_wf_emitter_handles : (Instr.spentExpiry noGen).wf = false ∧ (Instr.startTimeExpiry noGen).wf = false ∧
    (Instr.stopPointExpiry noGen 0).wf = false ∧ (Instr.rampEndExpiry noGen).wf = false ∧
    (Instr.primedReport noGen).wf = false ∧ (Instr.endOfClipReport noGen).wf = false ∧
    (Instr.cueCrossing noGen 0 0).wf = false ∧ (Instr.recoveredReport noGen).wf = false ∧
    (Instr.failureReport noGen).wf = false ∧ (Instr.portLeave 0 noGen).wf = false ∧
    (Instr.reservationRelease 0 noGen).wf = false := by decide

theorem test_wf_change_numbers : (Instr.atApplyExpiry noGen 1).wf = false ∧ (Instr.atApplyExpiry E12 0).wf = false ∧
    (Instr.atApplyExpiry E12 65536).wf = false ∧ (Instr.nextFrameApplyExpiry E12 0).wf = false ∧
    (Instr.nextFrameApplyExpiry E12 65535).wf = true := by decide

theorem test_wf_other_handles : (Instr.fadeReplacementExpiry ⟨2, 0⟩).wf = false ∧
    (Instr.readCountMessage ⟨5, 0⟩ .clean).wf = false ∧ (Instr.clipReferenceRelease ⟨5, 0⟩).wf = false := by decide

theorem test_wf_weights : (Instr.portJoin 0 E12 8185).wf = false ∧ (Instr.portWeight 0 E12 8185).wf = false ∧
    (Instr.reservationClaim 0 E12 true 8185).wf = false ∧ (Instr.portJoin 0 noGen 0).wf = false ∧
    (Instr.portWeight 0 noGen 0).wf = false ∧ (Instr.reservationClaim 0 noGen true 0).wf = false := by decide

theorem test_wf_copy : (Instr.copyHostReadDone 1 []).wf = false ∧ (Instr.copyHostReadDone 1 [1, 2, 3]).wf = false := by decide

/-! ## Values that the manual writes out -/

/-- The CRC-32 of R137, on four zero bytes. -/
theorem test_crc32_of_zeros : crc32 [0, 0, 0, 0] = 0x2144DF1C := by decide +kernel

/-- R69 to R71 and R79: a LOOP wraps at its end, and at the clip length. -/
theorem test_played_order : (LoopMode.loop 100 2000).after 3000 1999 = 100 ∧ (LoopMode.loop 100 2000).after 3000 2999 = 100 ∧
    (LoopMode.loop 100 2000).after 3000 1998 = 1999 ∧ LoopMode.once.after 3000 2999 = 3000 := by decide

/-- R77: a run stops at the page, the loop end and the clip length. -/
theorem test_run_limit : runLimit .once 40000 16000 = 384 ∧ runLimit (.loop 0 2000) 40000 1900 = 100 ∧
    runLimit .once 500 100 = 400 ∧ runLimit .once 40000 0 = 1024 := by decide

/-- R34: quotients round to the nearest, halves away from zero. -/
theorem test_round_div : roundDiv 5 2 = 3 ∧ roundDiv (-5) 2 = -3 ∧ roundDiv 4 3 = 1 ∧ roundDiv (-4) 3 = -1 := by decide

/-- R43: the next boundary lies after the count, also when the count stands on one. -/
theorem test_next_boundary : nextBoundary 0 = 10000 ∧ nextBoundary 9999 = 10000 ∧ nextBoundary 10000 = 20000 := by decide

/-- 9.9: the unit state word. -/
theorem test_unit_state_word : (UnitState.active .writing).word = 0x41 ∧ (UnitState.faulted .window).word = 0x303 ∧
    UnitState.suspended.word = 2 := by decide

/-- R7: from 255 a generation continues at 1. -/
theorem test_generations : nextGen 255 = 1 ∧ nextGen 1 = 2 ∧ takeGen 1 true = 1 ∧ takeGen 7 false = 8 := by decide

/-- R153: the tone at 0 and at a quarter turn. -/
theorem test_tone : toneAt 0 = ⟨32767, 0⟩ ∧ toneAt 8 = ⟨0, 32767⟩ ∧ toneAt 16 = ⟨-32767, 0⟩ := by decide +kernel

/-- R44: a request for a time that has come is raised at once. -/
theorem test_request_at_once : (State.reset.request (.spent E12) 0).inFlight = [.expiry (.spent E12)] ∧
    (State.reset.request (.spent E12) 1).timer = [⟨.spent E12, 1⟩] := by decide

/-- R100: the committed weight is the members' and the reserved increases. -/
theorem test_committed : ({ PortRec.initial 0 with
    members := [⟨E12, 300, []⟩], reservations := [⟨⟨1, 1⟩, true, 50⟩] } : PortRec).committed = 350 := by decide

/-! ## Small states -/

/-- The part READY, with nothing defined. -/
def ready : State := { State.reset with phase := .ready }

/-- A clip of lane 1 at 5 MS/s, with one reference. -/
def clipOf (st : ClipState) (refs : Nat) : Clip where
  lane := 1
  state := st
  basePage := 0
  pageCount := 1
  length := 16384
  rate := 5000000
  expectedCrc := 0
  computedCrc := none
  refs := refs
  corrected := 0
  uncorrectable := 0
  attention := false
  causes := {}

/-- A record of lane 1 on port 0, with one path of weight 100. -/
def recordOf (st : EmState) : Record where
  lane := 1
  state := st
  clip := C5
  priority := 3
  startOffset := 0
  loop := .once
  carrier := 0
  ports := 1
  paths := [⟨⟨0, 100, 0, 0, none⟩, none, 0, none⟩]
  startPoint := none
  stopPoint := none
  cue := none
  staged := none
  playPosition := 0
  passCount := 0
  cueCount := 0
  lateAmount := 0
  condition := .clean
  gapSamples := 0
  supersededCount := 0
  passedOver := 0
  attention := false
  causes := {}
  spent := none
  changeCounter := 0
  advance := 0
  startRef := none
  startMark := false
  primedNoted := false
  takenLate := false
  ramp := none

/-- The part READY with clip C5/1 in its catalog, and port 0 of lane 1 READY at 5 MS/s. -/
def withClip (c : Clip) : State :=
  (ready.setClip 5 ⟨1, false, some c, none⟩).setPort 0
    { ready.ports.get 0 with owner := 1, clock := .synth 16, head := .ready }

/-- The same with a record in entry E12/3. -/
def withRecord (r : Record) : State := (withClip (clipOf .ready 1)).setEntry 12 ⟨3, false, some r⟩

/-- The same with a stream slot that the record holds. -/
def onSlot (r : Record) (x : StreamSlot) : State :=
  (withRecord r).setSlot 0 { x with owner := some E12, rate := 5000000 }

/-- A lane has handed over a request, with the given flags. -/
def asked (s : State) (l : Lane) (r : Request) (flags : BitVec 8) : State :=
  s.setUnit l { s.units.get l with state := .active .handed, block := some ⟨⟨0, r.kind, flags, 10, 10⟩, some r⟩ }

/-- The unit of a lane in another state. -/
def unitIn (s : State) (l : Lane) (st : UnitState) : State := s.setUnit l { s.units.get l with state := st }

/-- A message is on its way. -/
def sending (s : State) (m : Message) : State := { s with inFlight := [m] }

theorem asked_handed (s : State) (l : Lane) (r : Request) (flags : BitVec 8) (flag : Header → Bool) (w : s.walk = none)
    (f : flag ⟨0, r.kind, flags, 10, 10⟩ = true) : (asked s l r flags).Handed l r flag :=
  ⟨w, by simp [asked, State.setUnit], ⟨⟨0, r.kind, flags, 10, 10⟩, some r⟩, by simp [asked, State.setUnit], rfl, f⟩

theorem withRecord_record (r : Record) : (withRecord r).recordAt E12 = some r := by
  simp [withRecord, State.recordAt, State.setEntry, E12]

theorem withClip_clip (c : Clip) : (withClip c).clipAt C5 = some c := by
  simp [withClip, State.clipAt, State.setPort, State.setClip, C5]

theorem withRecord_clip (r : Record) : (withRecord r).clipAt C5 = some (clipOf .ready 1) := withClip_clip _

theorem withRecord_slot (st : EmState) : (withRecord (recordOf st)).slotOf E12 = none := by
  show ready.slotOf E12 = none
  decide +kernel

theorem onSlot_slot (r : Record) (x : StreamSlot) : (onSlot r x).slotOf E12 = some 0 := by
  simp [onSlot, State.slotOf, State.setSlot, E12, List.finRange, List.ofFn_succ]

theorem sending_mem (s : State) (m : Message) : m ∈ (sending s m).inFlight := List.mem_singleton.2 rfl

theorem unitIn_state (s : State) (l : Lane) (st : UnitState) : ((unitIn s l st).units.get l).state = st := by
  simp [unitIn, State.setUnit]

/-! ## Behaviour on small states -/

/-- R99: a new port of the set is a join with the whole weight; a port that stays has the increase. -/
theorem test_claims :
    (⟨some [⟨0, 300, 0, 0, none⟩], none, some 3, none, .keep, .keep⟩ : NewValues).claims (recordOf .onAir) =
      [⟨0, false, 200⟩, ⟨1, true, 300⟩] ∧
    (⟨some [⟨0, 100, 0, 0, none⟩], none, none, none, .keep, .keep⟩ : NewValues).claims (recordOf .onAir) = [] := by decide

/-- Port 0 of lane 1 has a budget below its committed weight. -/
def crowded (ports : BitVec 8) : State :=
  let s := withRecord { recordOf .onAir with ports := ports }
  s.setPort 0 { s.ports.get 0 with budget := 256, members := [⟨⟨20, 1⟩, 300, []⟩] }

/-- A MODIFY of E12 to port 0 with no weight at all. -/
def weightless : ModifyReq := { modifyReq .now with paths := some [{ pathField with weight := 0 }], ports := some 1 }

/-- R97, step 10: a port that the change joins is tested whatever the new weight, a port of both sets only where the weight rises. -/
theorem test_headroom_of_a_joined_port :
    (crowded 2).checkModify 1 weightless = .error ⟨.headroom, .port 0⟩ ∧
    ((crowded 1).checkModify 1 weightless).isOk = true := by decide +kernel

/-- A priority above 7 is RANGE, however large, and so is a starting point index above 63, with a fade or without one: the model's
choices of notes/assumptions/8.md and 55.md beside R13 and R14. -/
theorem test_create_ranges :
    createRanges { createReq [pathField] with priority := 7 } = true ∧
    (withClip (clipOf .ready 0)).checkCreate 1 { createReq [pathField] with priority := 256 } false = .error ⟨.range, .empty⟩ ∧
    (withClip (clipOf .ready 0)).checkCreate 1 (createReq [{ pathField with fadeIndex := 64 }]) false =
      .error ⟨.range, .empty⟩ ∧
    createRanges (createReq [{ pathField with fadeIndex := 63 }]) = true := by decide

/-- A refusal for a condition on FOLLOW names the port of the request: the model's choice of notes/assumptions/57.md beside R159. -/
theorem test_follow_refusal :
    (withClip (clipOf .ready 0)).checkConfigure 1 ⟨0, .follow 0, 1, 256⟩ = .error ⟨.range, .port 0⟩ := by decide

/-- A request area shorter than the fields of its kind is BAD_REQUEST (R168): START needs 11 bytes, and every CREATE more than 0;
the longest area holds a CREATE of eight paths. -/
theorem test_request_area_length :
    (⟨⟨0, 2, 0, 1, 0⟩, some (.start ⟨raw 12 3, ⟨1, 0⟩⟩)⟩ : Block).formOk = false ∧
    (⟨⟨0, 2, 0, 2, 0⟩, some (.start ⟨raw 12 3, ⟨1, 0⟩⟩)⟩ : Block).formOk = true ∧
    (⟨⟨0, 1, 0, 0, 0⟩, some (.create (createReq [pathField]))⟩ : Block).formOk = false ∧
    (⟨⟨0, 1, 0, 62, 64⟩, some (.create (createReq (List.replicate 8 pathField)))⟩ : Block).formOk = true := by
  exact ⟨by decide, by decide, formOk_of_short _ _ (by decide), formOk_of_longest _ _ (by decide) rfl (by decide)⟩

/-- Every field whose width 9.9 fixes counts (R168): the ends of a LOOP, an apply point's time or trigger, a FOLLOW leader, an
EXTERNAL rate, the trigger and owner of a setting. -/
theorem test_encoded_bytes :
    (Request.create { createReq [pathField] with loop := .loop 0 16 }).encodedBytes =
      (Request.create (createReq [pathField])).encodedBytes + 8 ∧
    (Request.modify (modifyReq (.at 0))).encodedBytes = (Request.modify (modifyReq .now)).encodedBytes + 8 ∧
    (Request.modify (modifyReq (.on 0))).encodedBytes = (Request.modify (modifyReq .now)).encodedBytes + 1 ∧
    (Request.modify { modifyReq .now with loop := some (.loop 0 16) }).encodedBytes =
      (Request.modify (modifyReq .now)).encodedBytes + 8 ∧
    (Request.configurePort ⟨0, .follow 1, 0, 256⟩).encodedBytes = 3 ∧
    (Request.configurePort ⟨0, .external 1000000, 0, 256⟩).encodedBytes = 6 ∧
    (Request.setLane ⟨1, none, none, [⟨0, .rising, 1, 1⟩]⟩).encodedBytes = 3 := by decide

/-- A MODIFY whose area is too short for its AT time is BAD_REQUEST (R168): it has 29 bytes of encoded fields, and 3 words are 24. -/
theorem test_modify_area_length :
    (Request.modify (modifyReq (.at 0))).encodedBytes = 29 ∧
    (⟨⟨0, 3, 0, 3, 0⟩, some (.modify (modifyReq (.at 0)))⟩ : Block).formOk = false :=
  ⟨by decide, formOk_of_short _ _ (by decide)⟩

/-- R179: a refused PAUSE has the words that DONE has; SET_LANE and an unknown kind have none, a refused SCAN its one word. -/
theorem test_refused_words :
    (⟨.wrongState, .empty⟩ : Answer).fullWords ⟨0, 4, 0, 2, 8⟩ = (⟨.done, .position 7⟩ : Answer).fullWords ⟨0, 4, 0, 2, 8⟩ ∧
    (⟨.laneDenied, .empty⟩ : Answer).fullWords ⟨0, 20, 0, 2, 8⟩ = 0 ∧ (⟨.badRequest, .empty⟩ : Answer).fullWords ⟨0, 22, 0, 2, 8⟩ = 0 ∧
    (⟨.range, .empty⟩ : Answer).fullWords ⟨0, 18, 0, 2, 8⟩ = 1 := ⟨rfl, rfl, rfl, rfl⟩

/-- A refused SCAN does not set TRUNCATED, another answer that is too long does (R167, R182). -/
theorem test_scan_never_truncates : truncates ⟨0, 18, 0, 0, 0⟩ 1 = false ∧ truncates ⟨0, 2, 0, 0, 0⟩ 1 = true ∧
    truncates ⟨0, 2, 0, 0, 1⟩ 1 = false := by decide

/-- A completion write of lane 2, whose block stands at 0. -/
def theWrite : HostWrite := ⟨0, 2, 0, 16, ⟨.done, .empty⟩, 0, false⟩

/-- The three parts of a completion write go in the order of R167. -/
theorem test_write_order : exec (.writeDone 2 0) { ready with writes := [theWrite] } =
    .next { ready with sent := [.resultWrite 2 16 .empty 0, .statusWrite 2 0x0C .done 0, .completionWrite 2 0x0F false] } := rfl

/-- FETCH_READ_FAILED in the re-read of a link (R171). -/
theorem test_link_read_failed : exec (.fetchReadFailed 1 0) (unitIn ready 1 (.active .readLink)) =
    .next ((unitIn ready 1 (.active .readLink)).faultUnit 1 .linkRead) := rfl

/-- R82 and R32: a tail changed to LOOP and back to ONCE before a sample is played goes on with its mark; a clip sample ends it. -/
theorem test_held_tail :
    let once : Record := { recordOf .paused with playPosition := 16384 }
    let x := ({ StreamSlot.free with tail := some 5, endFound := true }).reorder { once with loop := .loop 0 2000 } 16384
    x.tail = none ∧ x.heldTail = some (5, true) ∧ (x.reorder once 16384).tail = some 5 ∧
    (x.reorder once 16384).endFound = true ∧ (x.reorder { once with playPosition := 3 } 16384).tail = none := by decide

/-! ## States and operands that meet the hypotheses of the statements -/

theorem meets_AnEmptyQueueLetsAPeriodPass : State.reset.pending = [] ∧ State.reset.phase ≠ .ready ∧ ready.pending = [] ∧
    ready.phase = .ready ∧ (ready.setFade 2 ⟨1, false, some ⟨1, ⟨[0, 1024], 1, .once⟩, none⟩⟩).fadeAt ⟨2, 1⟩ =
      some ⟨1, ⟨[0, 1024], 1, .once⟩, none⟩ := by decide

theorem meets_TheWindowStoresOrRefusesItsWrites :
    listValueInvalid 0 = true ∧ listValueInvalid 4 = true ∧ State.reset.phase ≠ .ready ∧
    ((unitIn ready 3 .suspended).units.get 3).state = .suspended ∧
    ((unitIn ready 3 (.active .held)).units.get 3).state = .active .held ∧ (ready.units.get 3).state = .idle ∧
    ((unitIn ready 0 (.faulted .linkRead)).units.get 0).state = .faulted .linkRead ∧ 0x1C0 = 0x100 + 0x40 * (3 : Lane).val ∧
    (Instr.registerWrite 0x1C0 0).wf = true ∧ (Instr.registerWrite 0x1C4 0).wf = true ∧ (Instr.registerWrite 0x010 0).wf = true ∧
    (∀ l : Lane, 0x1C4 ≠ 0x100 + 0x40 * l.val) ∧ ∀ l : Lane, 0x010 ≠ 0x100 + 0x40 * l.val := by decide

/-- Lane 1 with a window of 16 bytes from 0x1000. -/
def narrow (listBase : BitVec 64) : State :=
  ready.setUnit 1 { ready.units.get 1 with window := some ⟨0x1000, 0x100F⟩, listBase := listBase }

theorem meets_StartAndResumeBeginAFetch :
    (ready.phase = .ready ∧ (ready.units.get 1).state = .idle) ∧
    ((unitIn ready 1 (.faulted .window)).units.get 1).state = .faulted .window ∧
    ((narrow 0x1008).units.get 1).listBase.toNat % 16 ≠ 0 ∧
    (((narrow 0x1010).units.get 1).listBase.toNat % 16 = 0 ∧
      windowAllows ((narrow 0x1010).units.get 1).window ((narrow 0x1010).units.get 1).listBase.toNat 16 = false) ∧
    (((narrow 0x1000).units.get 1).listBase.toNat % 16 = 0 ∧
      windowAllows ((narrow 0x1000).units.get 1).window ((narrow 0x1000).units.get 1).listBase.toNat 16 = true) ∧
    ((unitIn ready 1 .suspended).phase = .ready ∧ ((unitIn ready 1 .suspended).units.get 1).state = .suspended ∧
      windowAllows ((unitIn ready 1 .suspended).units.get 1).window 0 8 = true) ∧
    ((unitIn (narrow 0) 1 .suspended).phase = .ready ∧ ((unitIn (narrow 0) 1 .suspended).units.get 1).state = .suspended ∧
      windowAllows ((unitIn (narrow 0) 1 .suspended).units.get 1).window
        ((unitIn (narrow 0) 1 .suspended).units.get 1).current.toNat 8 = false) ∧
    (0x1008 : BitVec 64).toNat % 16 ≠ 0 ∧ windowAllows (some ⟨0x1000, 0x100F⟩) (0x1008 : BitVec 64).toNat 8 = true ∧
    (((unitIn ready 1 (.active .readLink)).units.get 1).state = .active .readLink ∧
      ((unitIn ready 1 (.active .readLink)).units.get 1).tag = 0) ∧
    windowAllows (some ⟨0x1000, 0x100F⟩) (0x1010 : BitVec 64).toNat 16 = false ∧
    windowAllows (some ⟨0x1000, 0x100F⟩) (0x1000 : BitVec 64).toNat 16 = true := by decide

/-- Lane 2 waits for its turn with a NOP of the given flags. -/
def waiting (flags : BitVec 8) : State :=
  ready.setUnit 2 { ready.units.get 2 with
    state := .active .waitingTurn, block := some ⟨⟨0, 0, flags, 0, 0⟩, some .nop⟩ }

/-- Lane 2 waits for its completion write. -/
def writing (flags : BitVec 8) : State := { unitIn (waiting flags) 2 (.active .writing) with writes := [theWrite] }

theorem meets_AFailedTransferFaultsTheUnit :
    ((unitIn ready 2 (.active .fetchHeader)).units.get 2).state = .active .fetchHeader ∧
    ((unitIn ready 2 (.active .fetchRequest)).units.get 2).state = .active .fetchRequest ∧
    ((unitIn ready 2 (.active .readLink)).units.get 2).state = .active .readLink ∧
    (((writing 0).units.get 2).state = .active .writing ∧ ((writing 0).units.get 2).tag = 0 ∧
      (writing 0).writeOf 2 0 = some theWrite) ∧
    ((({ ready with writes := [theWrite] } : State).units.get 2).state ≠ .active .writing ∧
      ({ ready with writes := [theWrite] } : State).writeOf 2 0 = some theWrite) := by decide

/-- Lane 1 is held by a LOAD_CLIP whose copy has copied 7 samples. -/
def loading : State :=
  let s := withClip (clipOf .loading 0)
  { s.setUnit 1 { s.units.get 1 with
      state := .active .held
      block := some ⟨⟨0, 9, 0, 62, 10⟩, some (.loadClip ⟨raw 5 1, 0x1000, true⟩)⟩ } with
    copy := some ⟨⟨C5, 1, 0x1000, true⟩, 7, crcInit, 4⟩ }

/-- A clip of lane 2 that is LOADING. -/
def otherClip : Clip := { clipOf .loading 0 with lane := 2, basePage := 1 }

/-- The same, with a load of lane 2 waiting behind it. -/
def loadingTwo : State :=
  { loading.setClip 7 ⟨1, false, some otherClip, none⟩ with loadQueue := [⟨⟨7, 1⟩, 2, 0x8000, false⟩] }

/-- Lane 1 is held by a LOAD_CLIP that waits while the engine copies lane 2's. -/
def queuedBehind : State :=
  { loading with copy := some ⟨⟨⟨7, 1⟩, 2, 0x8000, false⟩, 7, crcInit, 4⟩, loadQueue := [⟨C5, 1, 0x1000, true⟩] }

theorem loading_formOk : (⟨⟨0, 9, 0, 62, 10⟩, some (.loadClip ⟨raw 5 1, 0x1000, true⟩)⟩ : Block).formOk = true :=
  formOk_of_longest _ _ (by decide) rfl (by decide)

/-- R139: the ABORT of the lane whose load is copied lets the engine begin the next load of the queue. -/
theorem test_abort_takes_the_next_load :
    ((loadingTwo.abortUnit 1).dispatchLoad.copy = some ⟨⟨⟨7, 1⟩, 2, 0x8000, false⟩, 0, crcInit, loadingTwo.nextTag + 1⟩) ∧
    (loadingTwo.abortUnit 1).dispatchLoad.clipAt C5 = some (clipOf .defined 0) ∧
    (loadingTwo.abortUnit 1).dispatchLoad.sent = [.hostRead (loadingTwo.nextTag + 1) 0x8000 65536] := by decide +kernel

theorem meets_AbortEndsTheUnitsWork :
    ((ready.units.get 1).state ≠ .active .handed ∧ (ready.units.get 1).state ≠ .active .held) ∧
    ((unitIn ready 1 (.active .handed)).units.get 1).state = .active .handed ∧
    ((loading.units.get 1).state = .active .held ∧
      (∃ b q, (loading.units.get 1).block = some b ∧ b.area = some (.loadClip q)) ∧
      loading.findLoad (fun x => x.lane == 1) = some (⟨C5, 1, 0x1000, true⟩, 7) ∧
      loading.clipAt C5 = some (clipOf .loading 0) ∧ (clipOf .loading 0).state = .loading) ∧
    (⟨⟨0, 9, 0, 62, 10⟩, some (.loadClip ⟨raw 5 1, 0x1000, true⟩)⟩ : Block).formOk = true ∧
    ((unitIn ready 1 (.active .held)).units.get 1).state = .active .held ∧ ((unitIn ready 1 (.active .held)).units.get 1).block = none ∧
    ((loadingTwo.units.get 1).state = .active .held ∧ loadingTwo.copy = some ⟨⟨C5, 1, 0x1000, true⟩, 7, crcInit, 4⟩ ∧
      loadingTwo.loadQueue.filter (fun y => y.lane != 1) = ⟨⟨7, 1⟩, 2, 0x8000, false⟩ :: []) ∧
    (loading.copy = some ⟨⟨C5, 1, 0x1000, true⟩, 7, crcInit, 4⟩ ∧ loading.loadQueue.filter (fun y => y.lane != 1) = []) ∧
    ((queuedBehind.units.get 1).state = .active .held ∧
      queuedBehind.copy = some ⟨⟨⟨7, 1⟩, 2, 0x8000, false⟩, 7, crcInit, 4⟩ ∧ (2 : Lane) ≠ 1) :=
  ⟨by decide, unitIn_state _ _ _, ⟨by decide, ⟨_, _, rfl, rfl⟩, by decide, by decide, rfl⟩, loading_formOk, by decide, by decide,
    ⟨by decide, rfl, rfl⟩, ⟨rfl, rfl⟩, by decide, rfl, by decide⟩

/-- 9.9 and R192: words of the window of lane 3 at reset and when it is FAULTED by its host window, and the start-up status. -/
theorem test_window_words :
    State.reset.windowWord 0x004 = 0 ∧ { ready with profilePartial := true }.windowWord 0x004 = 5 ∧
    (unitIn ready 3 (.faulted .window)).windowWord 0x1CC = 0x303 ∧
    (ready.setUnit 3 { ready.units.get 3 with listBase := 0x123456789 }).windowWord 0x1C0 = 0x23456789 ∧
    (ready.setUnit 3 { ready.units.get 3 with listBase := 0x123456789 }).windowWord 0x1C4 = 1 ∧
    (ready.setUnit 3 { ready.units.get 3 with summary := 0x1FF }).windowWord 0x1D8 = 0x1FF ∧ ready.windowWord 0x1C8 = 0 := by
  decide

/-- An offset with no field, and the last one with a field. -/
theorem meets_the_window_words :
    (0x010 ∉ [0x000, 0x004, 0x008, 0x00C] ∧
      ∀ l : Lane, ∀ k ∈ [0x00, 0x04, 0x0C, 0x10, 0x14, 0x18, 0x1C], 0x010 ≠ 0x100 + 0x40 * l.val + k) ∧
    0x1DC = 0x100 + 0x40 * (3 : Lane).val + 0x1C ∧ ready.phase = .ready ∧ State.reset.phase ≠ .ready := by decide

theorem meets_TheLatchJoinsTheTwoReads : State.reset.latch = none ∧
    ({ State.reset with latch := some 0xFFFFFFFF } : State).latch = some 0xFFFFFFFF := by decide

/-- A sounding record holds the last reference of a clip that drains. -/
def withDraining : State := (withClip (clipOf .draining 1)).setEntry 12 ⟨3, false, some (recordOf .onAir)⟩

/-- A change that waits for the time 5, with a join reserved at port 1. -/
def aChange : Change := ⟨1, .at 5, 0, ⟨none, none, some 2, none, .keep, .keep⟩, 0, [⟨1, true, 100⟩]⟩

/-- The lane whose load is copied is HELD, and lane 3 is HANDED. -/
def busy : State := unitIn loading 3 (.active .handed)

/-- R125 and R172: the flush ends the HELD load with its samples copied, and drops the HANDED request without a write. -/
theorem test_flush_writes_aborted :
    let u := (List.finRange 4).foldl (fun s l => s.abortUnit l) busy
    u.writes.map (fun w => (w.lane, w.answer)) = [(1, ⟨.aborted, .copied 7⟩)] ∧ u.clipAt C5 = some (clipOf .defined 0) ∧
    ∀ l, (u.units.get l).state = .idle := by decide +kernel

/-- R125 and R142: the flush releases the last reference of a DRAINING clip. -/
theorem test_flush_drains :
    ((withDraining.flushWhere fun _ => true).clips.get 5).clip = none ∧
    ((withDraining.flushWhere fun _ => true).clips.get 5).note = some ⟨C5, 1, { drained := true }, 0, 0⟩ := by decide +kernel

theorem meets_SceneFlushFreesTheTable : State.reset.phase ≠ .ready ∧ ready.phase = .ready ∧
    (∀ i c, (ready.clips.get i).clip = some c → c.state ≠ .draining) ∧
    ((withRecord { recordOf .onAir with staged := some aChange }).recordAt E12 =
      some { recordOf .onAir with staged := some aChange } ∧ (recordOf .onAir).state ≠ .spent) ∧
    ((withRecord (recordOf .onAir)).clipAt C5 = some (clipOf .ready 1) ∧
      (clipOf .ready 1).refs = (withRecord (recordOf .onAir)).holders C5) ∧
    (withDraining.clipAt C5 = some (clipOf .draining 1) ∧ (clipOf .draining 1).refs = withDraining.holders C5) ∧
    ((loading.units.get 1).state = .active .held ∧
      loading.findLoad (fun y => y.lane == 1) = some (⟨C5, 1, 0x1000, true⟩, 7) ∧
      loading.clipAt C5 = some (clipOf .loading 0)) ∧
    (loading.inPhase 1 .held = true ∧ (∀ l, (loading.units.get l).state ≠ .active .handed)) ∧
    (busy.inPhase 1 .held = true ∧ (busy.units.get 3).state = .active .handed) :=
  ⟨by decide, by decide, fun i c h => by simp [ready, State.reset, ClipSlot.initial] at h,
    ⟨withRecord_record { recordOf .onAir with staged := some aChange }, by decide⟩,
    ⟨withRecord_clip _, by decide +kernel⟩, ⟨by decide, by decide +kernel⟩, ⟨by decide, by decide, by decide⟩,
    by decide, by decide⟩

theorem meets_AReadBlockWaitsForItsTurn :
    ((unitIn ready 1 (.active .fetchHeader)).units.get 1).state = .active .fetchHeader ∧
    (((⟨0, 0, 0, 62, 64⟩ : Header).reqLen.toNat ≤ 62 ∧ (⟨0, 0, 0, 62, 64⟩ : Header).resLen.toNat ≤ 64) ∧
      windowAllows (some .unrestricted) 0 (16 + 8 * 62 + 8 * 64) = true ∧
      windowAllows (some ⟨0, 1022⟩) 0 (16 + 8 * 62 + 8 * 64) = false) ∧
    62 < (⟨0, 0, 0, 63, 0⟩ : Header).reqLen.toNat ∧ 64 < (⟨0, 0, 0, 0, 65⟩ : Header).resLen.toNat ∧
    (((ready.setUnit 1 { ready.units.get 1 with
        state := .active .fetchRequest, block := some ⟨⟨0, 0, 0, 0, 0⟩, none⟩ }).units.get 1).state = .active .fetchRequest) := by
  decide

theorem meets_TheRotationHandsOver :
    (∀ k, ((waiting 0).units.get k).state ≠ .active .handed) ∧ ((waiting 0).units.get 2).state = .active .waitingTurn ∧
    (∀ k, ((waiting 0).units.get k).state = .active .waitingTurn →
      ((2 : Lane).val + 3 - (waiting 0).pointer.val) % 4 ≤ (k.val + 3 - (waiting 0).pointer.val) % 4) ∧
    (⟨⟨0, 0, 0, 0, 0⟩, some .nop⟩ : Block).formOk = true ∧ (⟨⟨0, 0, 32, 0, 0⟩, some .nop⟩ : Block).formOk = false := by
  decide

theorem meets_ABlockIsAnswered :
    ((waiting 0).units.get 2).block = some ⟨⟨0, 0, 0, 0, 0⟩, some .nop⟩ ∧
    (sending (unitIn ready 1 (.active .held)) (.heldDone 1 ⟨.done, .empty⟩ 0)).inFlight =
      [] ++ .heldDone 1 ⟨.done, .empty⟩ 0 :: [] ∧
    (∀ m ∈ ([] : List Message), m.isHeldDone 1 = false) ∧
    ((unitIn ready 1 (.active .held)).units.get 1).state = .active .held ∧ (ready.units.get 1).state ≠ .active .held ∧
    (asked ready 1 .nop 0).Handed 1 .nop anyFlag :=
  ⟨by decide, rfl, by simp, by decide, by decide, asked_handed _ _ _ _ _ rfl rfl⟩

theorem meets_ACompletedBlockActsOnItsFlags :
    (((writing 0).units.get 2).state = .active .writing ∧
      ((writing 0).units.get 2).block = some ⟨⟨0, 0, 0, 0, 0⟩, some .nop⟩ ∧
      (writing 0).writeOf 2 ((writing 0).units.get 2).tag = some theWrite) ∧
    ((({ ready with writes := [theWrite] } : State).units.get 2).state ≠ .active .writing ∧
      ({ ready with writes := [theWrite] } : State).writeOf 2 0 = some theWrite) ∧
    (⟨0, 0, 5, 0, 0⟩ : Header).stop = true ∧ (⟨0, 0, 5, 0, 0⟩ : Header).notify = true ∧
    ((⟨0, 0, 2, 0, 0⟩ : Header).stop = false ∧ (⟨0, 0, 2, 0, 0⟩ : Header).suspend = true) ∧
    ((⟨0, 0, 0, 0, 0⟩ : Header).stop = false ∧ (⟨0, 0, 0, 0, 0⟩ : Header).suspend = false ∧
      (⟨0, 0, 0, 0, 0⟩ : Header).link.toNat % 16 = 0 ∧
      windowAllows ((writing 0).units.get 2).window 0 16 = true) := by decide

/-! ### Requests on emitters -/

/-- One refused request of every kind with checks. -/
theorem meets_ARefusalChangesNothing :
    (ready.checkCreate 1 (createReq []) false = .error ⟨.badRequest, .empty⟩) ∧
    (ready.checkStart 1 ⟨raw 12 3, ⟨0, 0⟩⟩ false = .error ⟨.badRequest, .empty⟩) ∧
    (ready.checkModify 1 { modifyReq .now with carrier := none } = .error ⟨.badRequest, .empty⟩) ∧
    (ready.checkPlaying 1 (raw 96 1) .onAir = .error ⟨.range, .empty⟩) ∧
    (ready.checkPlaying 1 (raw 95 1) .paused = .error ⟨.staleHandle, .empty⟩) ∧
    (ready.checkRetire 1 ⟨raw 95 1, 5001⟩ = .error ⟨.range, .empty⟩) ∧
    (ready.findEmitter 1 (raw 0 1) = .error ⟨.staleHandle, .empty⟩) ∧
    (ready.checkDefineFade 1 ⟨none, [], 1, .once⟩ = .error ⟨.badRequest, .empty⟩) ∧
    (ready.checkRetireFade 1 (raw 16 1) = .error ⟨.range, .empty⟩) ∧
    (checkFlush 1 4 = .error ⟨.range, .empty⟩) ∧
    (ready.checkDefineClip ⟨0, 0, 1, 1000000, 0⟩ = .error ⟨.range, .empty⟩) ∧
    (ready.checkLoadClip 1 ⟨raw 5 1, 2, true⟩ = .error ⟨.range, .empty⟩) ∧
    (ready.checkRetireClip 1 (raw 5 1) = .error ⟨.staleHandle, .empty⟩) ∧
    (ready.checkQueryClip 1 (raw 5 1) = .error ⟨.staleHandle, .empty⟩) ∧
    (ready.checkConfigure 1 ⟨0, .unknown, 0, 256⟩ = .error ⟨.badRequest, .empty⟩) ∧
    (ready.checkRestart 1 8 = .error ⟨.range, .empty⟩) ∧
    (ready.checkSetOutput 1 ⟨0, false, false, 5⟩ = .error ⟨.range, .empty⟩) ∧
    (ready.findPort 1 8 = .error ⟨.range, .empty⟩) ∧
    (checkScanStart (some ⟨some .ports, 8⟩) = .error ⟨.range, .empty⟩) ∧
    (checkSetLane 1 ⟨0, none, none, []⟩ = .error ⟨.badRequest, .empty⟩) ∧
    (ready.checkSetTime 1 = .error ⟨.laneDenied, .empty⟩) ∧
    ∀ r, (asked ready 1 r 0).Handed 1 r anyFlag :=
  ⟨rfl, rfl, rfl, rfl, rfl, rfl, rfl, rfl, rfl, rfl, rfl, rfl, rfl, rfl, rfl, rfl, rfl, rfl, rfl, rfl, rfl,
    fun _ => asked_handed _ _ _ _ _ rfl rfl⟩

/-- The emitter handle checks: slot 96, a stale handle, another lane, the wrong state. -/
theorem meets_AnEmitterHandleIsChecked :
    (asked ready 1 (.pause (raw 96 1)) 0).Handed 1 (.pause (raw 96 1)) anyFlag ∧ 96 ≤ (raw 96 1).slot.toNat ∧
    (raw 95 1).emitter = some ⟨95, 1⟩ ∧ ready.recordAt ⟨95, 1⟩ = none ∧ (raw 12 3).emitter = some E12 ∧
    (withRecord (recordOf .staged)).recordAt E12 = some (recordOf .staged) ∧
    ((2 : Lane) ≠ 0 ∧ 2 ≠ (recordOf .staged).lane) ∧ (1 : Lane) = (recordOf .staged).lane ∧
    (recordOf .staged).state ≠ .onAir ∧ (recordOf .staged).state ≠ .paused :=
  ⟨asked_handed _ _ _ _ _ rfl rfl, by decide, by decide, by decide, by decide, withRecord_record _, by decide, by decide,
    by decide, by decide⟩

/-- A STAGED record at E12, and one ARMED for the time 20,000 in the time arm set. -/
def twoStarts : State :=
  { (withRecord (recordOf .staged)).setEntry 20 ⟨1, false, some { recordOf .armed with startPoint := some (.at 20000) }⟩ with
    armSet := [⟨20, 1⟩] }

/-- R50 and R51: the lead taken within a START covers the record armed before it for the same time, which joins the queue first. -/
theorem test_lead_within_start :
    (twoStarts.beginStart E12 (.at 20000)).grantQueue = [⟨20, 1⟩, E12] ∧ (twoStarts.beginStart E12 (.at 20000)).armSet = [] ∧
    (twoStarts.beginStart E12 (.at 20000)).timer = [⟨.startTime ⟨20, 1⟩, 20000⟩, ⟨.startTime E12, 20000⟩] := by decide +kernel

/-- R50: the time arm set is in ascending order of the start times, and records of the same time stand as they came. -/
theorem test_arm_set_order :
    (twoStarts.beginStart E12 (.at 20001)).armSet = [⟨20, 1⟩, E12] ∧
    ((twoStarts.setEntry 20 ⟨1, false, some { recordOf .armed with startPoint := some (.at 20002) }⟩).beginStart E12
      (.at 20001)).armSet = [E12, ⟨20, 1⟩] ∧
    (twoStarts.beginStart E12 (.at 20001)).timer = [⟨.startLead E12 20001, 1⟩] := by decide +kernel

/-- A start-time expiry that is taken 3 ticks after its time, with the primed report taken, writes a late amount of 3: the model's
choice of notes/assumptions/56.md beside R75 and R76. -/
theorem test_start_time_taken_late :
    ∃ u, exec (.startTimeExpiry E12) { sending (withRecord { recordOf .priming with
        startPoint := some (.at 7), startRef := some 7, primedNoted := true }) (.expiry (.startTime E12)) with
      sceneTime := 10 } = .next u ∧ (u.recordAt E12).map (fun r => (r.state, r.lateAmount)) = some (.onAir, 3) :=
  ⟨_, rfl, by decide +kernel⟩

/-- Trigger 7 belongs to lane 1, and the profile F2/1 is defined. -/
def forCreate : State :=
  let s := withClip (clipOf .ready 0)
  (s.setTrigger 7 { s.triggers.get 7 with owner := 1 }).setFade 2 ⟨1, false, some ⟨1, ⟨[0, 1024], 1, .once⟩, none⟩⟩

/-- A CREATE with a LOOP of the least length, a cue on its last sample, a fade at the profile's last point, an ON start and a stop. -/
def fullCreate : CreateReq :=
  { createReq [{ pathField with delay := 1023, fadeIndex := 1, fadePresent := 1, fade := raw 2 1 }] with
    startOffset := 1123, loop := .loop 100 1124, cue := ⟨1, 16383, 3⟩, start := ⟨3, 7⟩, stop := ⟨1, 50000⟩ }

/-- A CREATE with an AT start before its stop point. -/
def timedCreate : CreateReq := { createReq [pathField] with start := ⟨2, 40000⟩, stop := ⟨1, 40001⟩ }

/-- R18 and R55: a CREATE with an AT start and a stop point asks for the start lead and the stop-point expiry. -/
theorem test_create_places :
    ∃ u, exec (.create 1 timedCreate false) (asked (withClip (clipOf .ready 0)) 1 (.create timedCreate) 0) = .next u ∧
      u.armSet = [⟨0, 1⟩] ∧ u.timer = [⟨.stopPoint ⟨0, 1⟩ 40001, 40001⟩, ⟨.startLead ⟨0, 1⟩ 40000, 20000⟩] ∧
      (u.recordAt ⟨0, 1⟩).map (·.state) = some .armed :=
  ⟨_, rfl, by decide +kernel, by decide +kernel, by decide +kernel⟩

/-- Every entry holds a SPENT record; `spent` is the spent list. -/
def fullTable (spent : List EmitterHandle) : State :=
  { withClip (clipOf .ready 0) with entries := Table.fill 96 ⟨3, false, some (recordOf .spent)⟩, spentList := spent }

/-- R16: with no FREE entry the head of the spent list is reclaimed, and with none there CREATE is refused with NO_ENTRY. -/
theorem test_create_chooses_its_entry :
    (fullTable [E12, ⟨20, 3⟩]).checkCreate 1 (createReq [pathField]) false = .ok ⟨12, some E12, .once, none, none, none⟩ ∧
    (fullTable []).checkCreate 1 (createReq [pathField]) false = .error ⟨.noEntry, .empty⟩ := by decide +kernel

/-- A CREATE that has met every check before the choice of its entry, where there is no entry to be had. -/
theorem meets_a_create_without_an_entry :
    (∀ i, ((fullTable []).entries.get i).record ≠ none) ∧ (fullTable []).spentList = [] ∧
    (asked (fullTable []) 1 (.create (createReq [pathField])) 0).CreatePlaced 1 (createReq [pathField]) .once ∧
    (asked (fullTable []) 1 (.create (createReq [pathField])) 0).Handed 1 (.create (createReq [pathField]))
      fun h => h.lateOk == false :=
  ⟨fun _ => by simp [fullTable], rfl,
    by
      have p : ∀ f ∈ (createReq [pathField]).paths, f = pathField := fun _ h => List.mem_singleton.1 h
      refine ⟨by decide, by decide, by decide, rfl, by decide, by decide, by decide, by decide, fun f h => ?_,
        fun _ _ e => (by cases e), by decide, fun _ e => (by cases e), fun _ _ e => (by cases e),
        fun f h z e => ?_, fun _ e => (by cases e), clipOf .ready 0, rfl, rfl, by decide, fun _ => .inl rfl,
        fun _ _ e => (by cases e), fun _ e => (by cases e), by decide, fun f h => ⟨?_, fun _ _ e => (by cases e)⟩,
        by decide +kernel⟩
      · rw [p f h]; unfold PathField.Ranged; decide
      · rw [p f h] at e; cases e
      · rw [p f h]; decide,
    asked_handed _ _ _ _ _ rfl (by decide)⟩

theorem meets_CreateMakesARecord :
    forCreate.checkCreate 1 fullCreate false = .ok ⟨0, none, .loop 100 1124, some 50000, some ⟨16383, 3⟩, some (.on 7)⟩ ∧
    (fullCreate.paths.map fun f => f.vals.fade) = [some ⟨F2, 1⟩] ∧ fullCreate.start.given = .on 7 ∧
    forCreate.checkCreate 1 timedCreate false = .ok ⟨0, none, .once, some 40001, none, some (.at 40000)⟩ ∧
    ((asked (withClip (clipOf .ready 0)) 1 (.create (createReq [pathField])) 0).Handed 1 (.create (createReq [pathField]))
      fun h => h.lateOk == false) ∧
    (withClip (clipOf .ready 0)).checkCreate 1 (createReq [pathField]) false = .ok ⟨0, none, .once, none, none, none⟩ ∧
    (twoStarts.checkCreate 1 { createReq [pathField] with start := ⟨2, 20000⟩ } false =
        .ok ⟨0, none, .once, none, none, some (.at 20000)⟩ ∧
      twoStarts.now < ticks 20000 ∧ ticks 20000 - 20000 ≤ twoStarts.now ∧ ⟨20, 1⟩ ∈ twoStarts.armSet ∧
      twoStarts.armedAt 20000 ⟨20, 1⟩ = true ∧ (twoStarts.recordAt ⟨20, 1⟩).isSome = true ∧ twoStarts.armSet.Nodup ∧
      (⟨0, 1⟩ : EmitterHandle) ∉ twoStarts.armSet ∧
      twoStarts.armSet.Pairwise (fun a b => twoStarts.armTime a ≤ twoStarts.armTime b)) ∧
    ((asked forCreate 1 (.create fullCreate) 0).Handed 1 (.create fullCreate) fun h => h.lateOk == false) :=
  ⟨by decide +kernel, by decide, by decide, by decide +kernel, asked_handed _ _ _ _ _ rfl (by decide), rfl,
    ⟨rfl, by decide⟩, asked_handed _ _ _ _ _ rfl (by decide)⟩

/-- NOW, ON, AT far ahead, AT within the lead, AT late under LATE_OK. -/
theorem meets_StartArmsOrQueues :
    (∀ q, (asked (withRecord (recordOf .staged)) 1 (.start q) 16).Handed 1 (.start q) fun h => h.lateOk == true) ∧
    (withRecord (recordOf .staged)).recordAt E12 = some (recordOf .staged) ∧
    (⟨1, 0⟩ : StartField).given.point = some .now ∧ (⟨3, 7⟩ : StartField).given.point = some (.on 7) ∧
    (⟨2, 20001⟩ : StartField).given.point = some (.at 20001) ∧
    (withRecord (recordOf .staged)).now < ticks 20001 - 20000 ∧
    (ticks 20000 - 20000 ≤ (withRecord (recordOf .staged)).now ∧ (withRecord (recordOf .staged)).now < ticks 20000) ∧
    ticks 0 ≤ (withRecord (recordOf .staged)).now ∧ (recordOf .staged).stopPoint = none ∧
    (twoStarts.recordAt E12 = some (recordOf .staged) ∧ twoStarts.armSet.Nodup ∧ E12 ∉ twoStarts.armSet ∧
      twoStarts.armSet.Pairwise (fun a b => twoStarts.armTime a ≤ twoStarts.armTime b) ∧
      twoStarts.armedAt 20000 ⟨20, 1⟩ = true ∧ twoStarts.now < ticks 20001 - 20000) ∧
    (∀ j ∈ twoStarts.armSet, j.slot = 12 → twoStarts.armedAt 20000 j = false) :=
  ⟨fun _ => asked_handed _ _ _ _ _ rfl (show ((16 : BitVec 8).getLsbD 4 == true) = true by decide), withRecord_record _,
    by decide, by decide, by decide, by decide, by decide, by decide, by decide, by decide, by decide⟩

/-- Without a slot, and with one whose tail has ended. -/
theorem meets_PauseAndResumeKeepThePosition :
    (∀ st, (withRecord (recordOf st)).slotOf E12 = none) ∧
    (∀ st x, (onSlot (recordOf st) x).recordAt E12 = some (recordOf st) ∧ (onSlot (recordOf st) x).slotOf E12 = some 0 ∧
      (onSlot (recordOf st) x).clipAt (recordOf st).clip = some (clipOf .ready 1) ∧
      ((onSlot (recordOf st) x).slots.get 0).endFound = x.endFound ∧
      (asked (onSlot (recordOf st) x) 1 (.pause (raw 12 3)) 0).Handed 1 (.pause (raw 12 3)) anyFlag) ∧
    (raw 12 3).emitter = some E12 ∧ (∀ st, (withRecord (recordOf st)).recordAt E12 = some (recordOf st)) ∧
    (asked (withRecord (recordOf .onAir)) 1 (.pause (raw 12 3)) 0).Handed 1 (.pause (raw 12 3)) anyFlag ∧
    (asked (withRecord (recordOf .paused)) 1 (.resume (raw 12 3)) 0).Handed 1 (.resume (raw 12 3)) anyFlag :=
  ⟨withRecord_slot, fun st x => ⟨withRecord_record (recordOf st), onSlot_slot _ x, withRecord_clip (recordOf st),
      by simp [onSlot, State.setSlot], asked_handed _ _ _ _ _ rfl rfl⟩,
    by decide, fun _ => withRecord_record _, asked_handed _ _ _ _ _ rfl rfl, asked_handed _ _ _ _ _ rfl rfl⟩

/-- The three queries, with and without CLEAR (flag bit 3). -/
theorem meets_QueriesReadAndClear :
    (∀ st c, (asked (withRecord (recordOf st)) 1 (.queryEmitter (raw 12 3)) (if c then 8 else 0)).Handed 1
      (.queryEmitter (raw 12 3)) fun h => h.clear == c) ∧
    (∀ st c, (asked (withClip (clipOf st 1)) 1 (.queryClip (raw 5 1)) (if c then 8 else 0)).Handed 1
      (.queryClip (raw 5 1)) fun h => h.clear == c) ∧
    (∀ c, (asked (withClip (clipOf .ready 1)) 1 (.queryPort 7) (if c then 8 else 0)).Handed 1
      (.queryPort 7) fun h => h.clear == c) ∧
    (raw 5 1).clip = C5 ∧ (withClip (clipOf .ready 1)).clipAt C5 = some (clipOf .ready 1) ∧ (7 : BitVec 8).toNat = (7 : Port).val :=
  ⟨fun _ c => asked_handed _ _ _ _ _ rfl (by cases c <;> decide), fun _ c => asked_handed _ _ _ _ _ rfl (by cases c <;> decide),
    fun c => asked_handed _ _ _ _ _ rfl (by cases c <;> decide), by decide, withClip_clip _, by decide⟩

/-- Every state with ramp 0 and with the longest ramp. -/
theorem meets_RetireActsByState :
    (∀ st ramp, (asked (withRecord (recordOf st)) 1 (.retire ⟨raw 12 3, ramp⟩) 0).Handed 1 (.retire ⟨raw 12 3, ramp⟩) anyFlag ∧
      (asked (withRecord (recordOf st)) 1 (.retire ⟨raw 12 3, ramp⟩) 0).recordAt E12 = some (recordOf st) ∧
      (recordOf st).state = st) ∧
    (raw 12 3).emitter = some E12 ∧ (1 : Lane) = (recordOf .staged).lane :=
  ⟨fun st _ => ⟨asked_handed _ _ _ _ _ rfl rfl, withRecord_record (recordOf st), rfl⟩, by decide, by decide⟩

/-- The spent interval of lane 1 is 0. -/
def atOnce : State :=
  { withRecord (recordOf .onAir) with spentIntervals := (withRecord (recordOf .onAir)).spentIntervals.set 1 0 }

theorem meets_GoingSpentGivesEverythingBack :
    ((withRecord (recordOf .onAir)).recordAt E12 = some (recordOf .onAir) ∧ (recordOf .onAir).state ≠ .spent ∧
      (withRecord (recordOf .onAir)).spentIntervals.get (recordOf .onAir).lane ≠ 0) ∧
    ((sending (withRecord (recordOf .spent)) (.expiry (.spent E12))).recordAt E12 = some (recordOf .spent) ∧
      .expiry (.spent E12) ∈ (sending (withRecord (recordOf .spent)) (.expiry (.spent E12))).inFlight) ∧
    (sending ready (.expiry (.spent E12))).recordAt E12 = none ∧
    ((withRecord { recordOf .onAir with staged := some aChange }).recordAt E12 =
        some { recordOf .onAir with staged := some aChange } ∧ ⟨1, true, 100⟩ ∈ aChange.portReservations ∧ aChange.apply = .at 5) ∧
    (withDraining.recordAt E12 = some (recordOf .onAir) ∧ withDraining.spentIntervals.get (recordOf .onAir).lane ≠ 0 ∧
      withDraining.clipAt C5 = some (clipOf .draining 1) ∧ (clipOf .draining 1).refs ≤ 1) ∧
    (atOnce.recordAt E12 = some (recordOf .onAir) ∧ atOnce.spentIntervals.get (recordOf .onAir).lane = 0) :=
  ⟨⟨withRecord_record _, by decide, by decide⟩, ⟨withRecord_record _, sending_mem _ _⟩, by decide,
    ⟨withRecord_record { recordOf .onAir with staged := some aChange }, by decide, rfl⟩, by decide, by decide⟩

/-- A record of lane 1 with a staged change, a slot, a membership and a stop point, beside one of lane 2 in the grant queue; both hold
a clip that drains. -/
def holder : State :=
  let s := (withClip (clipOf .draining 2)).setEntry 12 ⟨3, false, some { recordOf .onAir with staged := some aChange }⟩
  let s := s.setEntry 20 ⟨1, false, some { recordOf .waiting with lane := 2 }⟩
  let s := s.setPort 0 { s.ports.get 0 with members := [⟨E12, 100, []⟩, ⟨⟨20, 1⟩, 100, []⟩] }
  let s := s.setPort 1 { s.ports.get 1 with reservations := [⟨E12, true, 100⟩] }
  { s.setSlot 0 { StreamSlot.free with owner := some E12, rate := 5000000 } with
    grantQueue := [⟨20, 1⟩], timer := [⟨.atApply E12 1, 5⟩, ⟨.stopPoint E12 9, 9⟩, ⟨.stopPoint ⟨20, 1⟩ 9, 9⟩] }

/-- R123 and R124: FLUSH_LANE gives back what the record of its lane held, and nothing of the other lane's. -/
theorem test_flush_lane_gives_back :
    let u := holder.flushWhere fun r => r.lane == 1
    u.recordAt E12 = none ∧ (u.recordAt ⟨20, 1⟩).isSome = true ∧ u.grantQueue = [⟨20, 1⟩] ∧
    u.timer = [⟨.stopPoint ⟨20, 1⟩ 9, 9⟩] ∧ (u.slots.get 0).owner = none ∧
    (u.ports.get 0).members = [⟨⟨20, 1⟩, 100, []⟩] ∧ (u.ports.get 1).reservations = [] ∧
    u.clipAt C5 = some (clipOf .draining 1) := by decide +kernel

theorem meets_FlushLaneFreesOneLane :
    (asked (withRecord (recordOf .onAir)) 1 (.flushLane 1) 0).Handed 1 (.flushLane 1) anyFlag ∧
    (1 : BitVec 8).toNat = (1 : Lane).val ∧ (asked ready 0 (.flushLane 3) 0).Handed 0 (.flushLane 3) anyFlag ∧
    (3 : BitVec 8).toNat = (3 : Lane).val ∧
    (∀ s : State, ∃ flushed : EmitterHandle → Prop, ∀ h, flushed h ↔ ∃ r, s.recordAt h = some r ∧ r.lane = 1) ∧
    ((asked holder 0 (.flushLane 1) 0).Handed 0 (.flushLane 1) anyFlag ∧
      holder.recordAt E12 = some { recordOf .onAir with staged := some aChange } ∧ holder.slotOf E12 = some 0 ∧
      holder.recordAt ⟨20, 1⟩ = some { recordOf .waiting with lane := 2 }) ∧
    (holder.clipAt C5 = some (clipOf .draining 2) ∧ holder.laneHolders C5 1 = 1 ∧ 1 ≤ (clipOf .draining 2).refs) ∧
    (withDraining.clipAt C5 = some (clipOf .draining 1) ∧ withDraining.laneHolders C5 1 = (clipOf .draining 1).refs ∧
      0 < (clipOf .draining 1).refs) ∧
    (∀ i c, (ready.clips.get i).clip = some c → c.state ≠ .draining) :=
  ⟨asked_handed _ _ _ _ _ rfl rfl, by decide, asked_handed _ _ _ _ _ rfl rfl, by decide, fun _ => ⟨_, fun _ => Iff.rfl⟩,
    ⟨asked_handed _ _ _ _ _ rfl rfl, by decide, by decide, by decide⟩, ⟨by decide, by decide +kernel, by decide⟩,
    ⟨by decide, by decide +kernel, by decide⟩, fun i c h => by simp [ready, State.reset, ClipSlot.initial] at h⟩

/-- A record in each state with its stop point, under the three messages, and a stale handle. -/
theorem meets_EndingsTakeTheRecordToSpent :
    (∀ st m, (sending (withRecord { recordOf st with stopPoint := some 9 }) m).recordAt E12 =
      some { recordOf st with stopPoint := some 9 } ∧
      m ∈ (sending (withRecord { recordOf st with stopPoint := some 9 }) m).inFlight) ∧
    (∀ m, (sending ready m).recordAt E12 = none ∧ m ∈ (sending ready m).inFlight) ∧ (some 9 : Option (BitVec 64)) ≠ some 10 :=
  ⟨fun st m => ⟨withRecord_record { recordOf st with stopPoint := some 9 }, sending_mem _ _⟩,
    fun m => ⟨show ready.recordAt E12 = none by decide, sending_mem _ _⟩, by decide⟩

/-! ### Staged changes and fade profiles -/

/-- A staged change that a MODIFY with NOW and one with ON supersede; a trigger of lane 1 for it. -/
def changing : State :=
  let s := withRecord { recordOf .onAir with staged := some aChange, changeCounter := 65535 }
  s.setTrigger 7 { s.triggers.get 7 with owner := 1 }

/-- The same with the profile F2/1, and port 1 of lane 1 READY at 5 MS/s with room. -/
def changingAll : State :=
  let s := changing.setFade 2 ⟨1, false, some ⟨1, ⟨[0, 1024], 1, .once⟩, none⟩⟩
  s.setPort 1 { s.ports.get 1 with owner := 1, clock := .synth 16, head := .ready }

/-- A MODIFY that changes every modifiable field, and one that removes the stop point and the cue. -/
def fullModify : ModifyReq :=
  { modifyReq (.at 50) with
    paths := some [{ pathField with weight := 1023, fadeIndex := 1, fadePresent := 1, fade := raw 2 1 }, pathField]
    ports := some 3, loop := some (.loop 0 1024), stop := ⟨1, 51⟩, cue := ⟨1, 16383, 3⟩ }

def removing : ModifyReq := { modifyReq (.on 7) with carrier := none, loop := some .once, stop := ⟨2, 0⟩, cue := ⟨2, 0, 0⟩ }

/-- The positions of ONCE from 5 on, and of a LOOP from 100 to 2000 entered at 1999. -/
theorem meets_ModifyAppliesOrStages :
    (changingAll.checkModify 1 fullModify).toOption.map (fun x => (x.apply, x.values, x.record.staged)) =
      some (some (.at 50), ⟨some [⟨0, 1023, 0, 0, some ⟨F2, 1⟩⟩, ⟨0, 100, 0, 0, none⟩], some 1000, some 3, some (.loop 0 1024),
        .set 51, .set ⟨16383, 3⟩⟩, some aChange) ∧
    (changingAll.checkModify 1 removing).toOption.map (fun x => (x.values.loop, x.values.stop, x.values.cue)) =
      some (some .once, .remove, .remove) ∧
    (changing.checkModify 1 (modifyReq .now)).isOk = true ∧
    (changing.checkModify 1 (modifyReq (.on 7))).toOption.map (fun x => (x.apply, x.record.staged)) =
      some (some (.on 7), some aChange) ∧
    (∃ order : Nat → Nat, order 0 = 5 ∧ ∀ i, order (i + 1) = order i + 1) ∧
    (∃ order : Nat → Nat, order 0 = (if 3000 ≤ 1999 then 100 else 1999) ∧
      ∀ i, order (i + 1) = if order i + 1 = 2000 ∨ 3000 ≤ order i + 1 then 100 else order i + 1) ∧
    (∀ q, (asked (withRecord (recordOf .onAir)) 1 (.modify q) 0).Handed 1 (.modify q) anyFlag) ∧
    (withRecord (recordOf .onAir)).checkModify 1 (modifyReq .now) =
      .ok ⟨E12, recordOf .onAir, ⟨none, some 1000, none, none, .keep, .keep⟩, none⟩ ∧
    (withRecord (recordOf .onAir)).checkModify 1 (modifyReq .nextFrame) =
      .ok ⟨E12, recordOf .onAir, ⟨none, some 1000, none, none, .keep, .keep⟩, some .nextFrame⟩ ∧
    (withRecord (recordOf .onAir)).checkModify 1 (modifyReq (.at 1)) =
      .ok ⟨E12, recordOf .onAir, ⟨none, some 1000, none, none, .keep, .keep⟩, some (.at 1)⟩ :=
  ⟨by decide +kernel, by decide +kernel, by decide +kernel, by decide +kernel, ⟨fun i => 5 + i, rfl, fun _ => rfl⟩,
    ⟨fun i => i.rec 1999 fun _ a => if a + 1 = 2000 ∨ 3000 ≤ a + 1 then 100 else a + 1, by decide, fun _ => rfl⟩,
    fun _ => asked_handed _ _ _ _ _ rfl rfl, rfl, rfl, rfl⟩

/-- A record on a slot that reads `run`, with a staged change that joins port 1 and sets a stop time that has come. -/
def expiring (run : Run) : State :=
  sending (onSlot { recordOf .onAir with
    staged := some ⟨1, .at 5, 0, ⟨none, none, some 3, some (.loop 0 2000), .set 0, .keep⟩, 0, [⟨1, true, 100⟩]⟩ }
    { StreamSlot.free with fetch := some ⟨4, E12, C5, run, false, false⟩ })
    (.expiry (.atApply E12 1))

/-- R82, R103 and R104: the apply joins the port, raises the expiry of the stop time, and keeps the read that the new loop plays
next. -/
theorem test_apply_tells_ports_timer_and_slot :
    ∃ u, exec (.atApplyExpiry E12 1) (expiring ⟨0, 10⟩) = .next u ∧ (u.ports.get 1).members = [⟨E12, 100, []⟩] ∧
      u.inFlight = [.expiry (.stopPoint E12 0)] ∧ (u.recordAt E12).map (·.loop) = some (.loop 0 2000) ∧
      (u.slots.get 0).fetch = some ⟨4, E12, C5, ⟨0, 10⟩, false, false⟩ ∧ (u.recordAt E12).map (·.staged) = some none :=
  ⟨_, rfl, by decide +kernel, by decide +kernel, by decide +kernel, by decide +kernel, by decide +kernel⟩

/-- R77 and R82: a read that the new loop does not play next stays in flight as a discarded one, and no other is issued. -/
theorem test_a_discarded_read_stays_in_flight :
    ∃ u, exec (.atApplyExpiry E12 1) (expiring ⟨50, 10⟩) = .next u ∧ u.nextTag = ready.nextTag ∧ u.strayReads = [] ∧
      (u.slots.get 0).fetch = some ⟨4, E12, C5, ⟨50, 10⟩, false, true⟩ :=
  ⟨_, rfl, by decide +kernel, by decide +kernel, by decide +kernel⟩

/-- A staged change with an AT point, and one with NEXT_FRAME. -/
theorem meets_AnApplyExpiryApplies :
    (∀ a m, (sending (withRecord { recordOf .onAir with staged := some ⟨1, a, 0, ⟨none, none, none, none, .keep, .keep⟩, 0, []⟩ })
        m).recordAt E12 =
      some { recordOf .onAir with staged := some ⟨1, a, 0, ⟨none, none, none, none, .keep, .keep⟩, 0, []⟩ } ∧
      m ∈ (sending (withRecord
        { recordOf .onAir with staged := some ⟨1, a, 0, ⟨none, none, none, none, .keep, .keep⟩, 0, []⟩ }) m).inFlight) ∧
    (recordOf .onAir).state.isLive = true ∧ (ApplyPoint.at 5).isAt = true ∧ ApplyPoint.nextFrame.isNextFrame = true ∧
    ApplyPoint.nextFrame.isAt = false :=
  ⟨fun a m => ⟨withRecord_record { recordOf .onAir with
      staged := some ⟨1, a, 0, ⟨none, none, none, none, .keep, .keep⟩, 0, []⟩ }, sending_mem _ _⟩,
    by decide, by decide, by decide, by decide⟩

/-- A profile F2/1 of lane 1, and a record that may name it. -/
def withFade (named : Bool) : State :=
  (withRecord { recordOf .onAir with
    paths := [⟨⟨0, 100, 0, 0, if named then some ⟨F2, 0⟩ else none⟩, some ⟨0, 0⟩, 0, none⟩] }).setFade 2
      ⟨1, false, some ⟨1, ⟨[0, 1024], 1, .once⟩, some ⟨[5, 6, 7], 2, .cycle⟩⟩⟩

theorem withFade_fade (b : Bool) :
    (withFade b).fadeAt F2 = some ⟨1, ⟨[0, 1024], 1, .once⟩, some ⟨[5, 6, 7], 2, .cycle⟩⟩ := by
  simp [withFade, State.fadeAt, State.setFade, F2]

theorem meets_FadeProfilesAreDefinedAndRetired :
    (∀ s q, s.walk = none → (asked s 1 (.defineFade q) 0).Handed 1 (.defineFade q) anyFlag) ∧
    ((ready.fades.get 0).profile = none ∧ ∀ j, j < (0 : FadeNo) → (ready.fades.get j).profile.isSome = true) ∧
    fadeModeOf .once = some .once ∧ fadeModeOf .cycle = some .cycle ∧ (raw 2 1).fade = some F2 ∧
    ((withFade false).fadeAt F2).isSome = true ∧ (withFade false).fadeUses F2 = 0 ∧ 0 < (withFade true).fadeUses F2 ∧
    (asked (withFade false) 1 (.retireFade (raw 2 1)) 0).Handed 1 (.retireFade (raw 2 1)) anyFlag ∧
    (List.replicate 64 1024).length ≤ 64 ∧ (∀ g ∈ [0, 1024], g ≤ 1024) :=
  ⟨fun _ _ w => asked_handed _ _ _ _ _ w rfl, by decide, by decide, by decide, by decide, by rw [withFade_fade]; rfl,
    by decide +kernel, by decide +kernel, asked_handed _ _ _ _ _ rfl rfl, by simp, by decide⟩

theorem meets_AReplacementTakesItsFrame :
    (.expiry (.fadeReplacement F2) ∈ (sending (withFade true) (.expiry (.fadeReplacement F2))).inFlight ∧
      (sending (withFade true) (.expiry (.fadeReplacement F2))).fadeAt F2 =
        some ⟨1, ⟨[0, 1024], 1, .once⟩, some ⟨[5, 6, 7], 2, .cycle⟩⟩) ∧
    (sending ready (.expiry (.fadeReplacement F2))).fadeAt F2 = none :=
  ⟨⟨sending_mem _ _, withFade_fade true⟩, by decide⟩

/-- The start of a step, its last tick, and the last point in both modes. -/
theorem meets_AFadeGainStaysOnItsCurve :
    ((⟨[0, 1024], 1, .once⟩ : FadeCurve).advance ⟨0, 9999⟩ = ⟨1, 0⟩ ∧
      (⟨[0, 1024], 1, .once⟩ : FadeCurve).advance ⟨1, 0⟩ = ⟨1, 0⟩ ∧
      (⟨[0, 1024], 1, .cycle⟩ : FadeCurve).advance ⟨1, 9999⟩ = ⟨0, 0⟩ ∧
      (⟨[0, 1024], 1, .cycle⟩ : FadeCurve).advance ⟨1, 9998⟩ = ⟨1, 9999⟩ ∧
      (⟨[0, 1024], 1, .once⟩ : FadeCurve).gain ⟨0, 5000⟩ = 512 ∧ (⟨[0, 1024], 1, .cycle⟩ : FadeCurve).gain ⟨1, 9999⟩ = 1 ∧
      (⟨[0, 1024], 1, .once⟩ : FadeCurve).gain ⟨1, 0⟩ = 1024) ∧
    (2 ≤ [0, 1024].length ∧ 1 ≤ 1 ∧ (∀ g ∈ [0, 1024], g ≤ 1024) ∧ 1 < [0, 1024].length ∧ 9999 < 1 * 10000) := by decide

/-! ### Scene time, triggers and cue lines -/

theorem meets_SetTimeCarriesDurations :
    (∀ (l : Lane) t timer, (asked { ready with timer := timer } l (.setTime t) 0).Handed l (.setTime t) anyFlag) ∧
    (∃ x ∈ [(⟨.startTime E12, 7⟩ : PendingExpiry)], x.kind.isAbsolute = true) ∧
    (∀ x ∈ [(⟨.rampEnd E12, 7⟩ : PendingExpiry), ⟨.outputChange 0, 10000⟩], x.kind.isAbsolute = false) :=
  ⟨fun _ _ _ => asked_handed _ _ _ _ _ rfl rfl, by decide, by decide⟩

/-- An ARMED record with an AT start in the time arm set, its lead on its way. -/
def armedAt : State :=
  { sending (withRecord { recordOf .armed with startPoint := some (.at 20000) }) (.expiry (.startLead E12 20000)) with
    armSet := [E12] }

/-- The same, but the lead on its way is that of a record which has left; the record that stands ARMED waits for its own. -/
def staleLead : State :=
  { armedAt with inFlight := [.expiry (.startLead ⟨20, 1⟩ 20000)], timer := [⟨.startLead E12 20000, 1⟩] }

/-- R10 and R44: the lead of a record that has left is dropped, and moves no other. -/
theorem test_stale_lead_is_dropped :
    exec (.startLeadExpiry 20000) staleLead = .next { staleLead with inFlight := [] } ∧
    (∃ u, exec (.startLeadExpiry 20000) armedAt = .next u ∧ u.grantQueue = [E12] ∧ u.inFlight = []) :=
  ⟨rfl, _, rfl, rfl, rfl⟩

/-- The lead of `armedAt`, taken at its start time. -/
def lateLead : State := { armedAt with sceneTime := 20000 }

theorem meets_ALeadExpiryQueuesItsRecords :
    (.expiry (.startLead E12 20000) ∈ lateLead.inFlight ∧ lateLead.armSet.Nodup ∧ ¬ lateLead.now < ticks 20000 ∧
      lateLead.armedAt 20000 E12 = true) ∧
    (.expiry (.startLead E12 20000) ∈ armedAt.inFlight ∧ armedAt.armSet.Nodup ∧ armedAt.now < ticks 20000 ∧
      armedAt.armedAt 20000 E12 = true) ∧
    (∀ h, .expiry (.startLead h 20000) ∈ staleLead.inFlight → staleLead.armedAt 20000 h = false) ∧
    (∀ s : State, ∃ due : EmitterHandle → Bool,
      ∀ h, due h = true ↔ ∃ r, s.recordAt h = some r ∧ r.state = .armed ∧ r.startPoint = some (.at 20000)) := by
  refine ⟨by decide, by decide, fun h m => ?_, fun s => ⟨s.armedAt 20000, fun h => ?_⟩⟩
  · simp only [staleLead, List.mem_singleton, Message.expiry.injEq, Expiry.startLead.injEq, and_true] at m
    subst m
    decide
  · unfold State.armedAt
    cases e : s.recordAt h <;> simp

/-- A WAITING record, a PRIMING one with and without the primed report noted, and a record in another state. -/
theorem meets_ThePrimedRecordGoesOnAir :
    (∀ st b start m, m ∈ (sending (withRecord { recordOf st with primedNoted := b, startPoint := start }) m).inFlight ∧
      (sending (withRecord { recordOf st with primedNoted := b, startPoint := start }) m).recordAt E12 =
        some { recordOf st with primedNoted := b, startPoint := start }) ∧
    (∃ t, some (StartPoint.at 5) = some (.at t)) ∧ (∀ t, some StartPoint.now ≠ some (.at t)) ∧
    (recordOf .priming).takenLate = false ∧ (recordOf .priming).startMark = false ∧
    ∀ m, (sending ready m).recordAt E12 = none :=
  ⟨fun st b start m => ⟨sending_mem _ _, withRecord_record { recordOf st with primedNoted := b, startPoint := start }⟩,
    ⟨5, rfl⟩, by simp, by decide, by decide, fun m => show ready.recordAt E12 = none by decide⟩

/-- Trigger 7 with its line HIGH against a LOW settled level since time -20. -/
def heldHigh : State :=
  ready.setTrigger 7 { ready.triggers.get 7 with line := true, candidate := some (-20) }

theorem meets_ATriggerQualifiesItsLine :
    ready.phase = .ready ∧ State.reset.phase ≠ .ready ∧ heldHigh.phase = .ready ∧
    (heldHigh.triggers.get 7).candidate = some (-20) ∧ (-20) + 10 * ((heldHigh.triggers.get 7).qualification : Int) ≤ heldHigh.now ∧
    (heldHigh.triggers.get 7).line ≠ (heldHigh.triggers.get 7).settled ∧ heldHigh.now < (-19) + 10 * 2 := by decide

/-- An edge of trigger 7 is on its way, and an ARMED record with a staged change stands in both its lists. -/
def bothLists : State :=
  sending ((withRecord { recordOf .armed with staged := some aChange }).setTrigger 7
    { ready.triggers.get 7 with armList := [E12], applyList := [E12] }) (.edge 7 5)

/-- R61: the change is applied, and the record released. -/
theorem test_edge_in_both_lists :
    ((bothLists.takeEdge 7 5).recordAt E12).map (fun r => (r.state, r.startRef, r.ports, r.staged)) =
      some (.waiting, some 5, 2, none) ∧ (bothLists.takeEdge 7 5).grantQueue = [E12] := by decide +kernel

theorem meets_AnEdgeIsWorkedOrUnclaimed :
    (.edge 7 5 ∈ (sending ready (.edge 7 5)).inFlight ∧ ((sending ready (.edge 7 5)).triggers.get 7).armList = [] ∧
      ((sending ready (.edge 7 5)).triggers.get 7).applyList = [] ∧ ((sending ready (.edge 7 5)).triggers.get 7).note = none) ∧
    ((sending (ready.setTrigger 7 { ready.triggers.get 7 with armList := [E12] }) (.edge 7 5)).triggers.get 7).armList ≠ [] ∧
    ((sending (ready.setTrigger 7 { ready.triggers.get 7 with armList := [E12] }) (.edge 7 5)).triggers.get 7).armList.Nodup ∧
    (.edge 7 5 ∈ bothLists.inFlight ∧ (bothLists.triggers.get 7).armList.Nodup ∧ (bothLists.triggers.get 7).applyList.Nodup ∧
      E12 ∈ (bothLists.triggers.get 7).armList ∧ E12 ∈ (bothLists.triggers.get 7).applyList ∧
      bothLists.recordAt E12 = some { recordOf .armed with staged := some aChange }) := by
  decide

theorem meets_ACrossingPulsesItsLine :
    (.crossing E12 3 7 ∈ (sending (withRecord (recordOf .onAir)) (.crossing E12 3 7)).inFlight ∧
      (sending (withRecord (recordOf .onAir)) (.crossing E12 3 7)).recordAt E12 = some (recordOf .onAir) ∧
      (recordOf .onAir).state.holdsSlot = true ∧ (recordOf .staged).state.holdsSlot = false) ∧
    ready.cues.get 3 = .idle ∧
    ((ready.setCue 3 (.pulsing 0)).cues.get 3 = .pulsing 0 ∧ (0 : Int) ≤ (ready.setCue 3 (.pulsing 0)).now) ∧
    ((ready.setCue 3 (.pulsing 1)).cues.get 3 = .pulsing 1 ∧ (ready.setCue 3 (.pulsing 1)).now < 1) :=
  ⟨⟨sending_mem _ _, withRecord_record _, by decide, by decide⟩, by decide, by decide, by decide⟩

/-! ### Stream slots and playout -/

/-- The record waits alone in the grant queue. -/
def queued (c : Clip) : State := { (withClip c).setEntry 12 ⟨3, false, some (recordOf .waiting)⟩ with grantQueue := [E12] }

/-- R77: the limit within a page of a ONCE clip, before a loop end and at a loop end. -/
theorem test_run_limits : IsRunLimit .once 40000 16000 384 ∧ IsRunLimit (.loop 0 2000) 40000 1900 100 ∧
    IsRunLimit (.loop 0 2000) 40000 2000 1024 ∧ IsRunLimit .once 16384 16384 0 :=
  ⟨⟨40000, by decide, fun _ => rfl, by simp⟩, ⟨2000, by decide, by simp, by simp⟩, ⟨40000, by decide, by simp, by simp⟩,
    ⟨16384, by decide, fun _ => rfl, by simp⟩⟩

theorem meets_AGrantTakesTheHead :
    (∃ limit, IsRunLimit (recordOf .waiting).loop (clipOf .ready 1).length (recordOf .waiting).startOffset limit ∧ 0 < limit) ∧
    (queued (clipOf .ready 1)).grantQueue = [] ++ E12 :: [] ∧ (queued (clipOf .ready 1)).grantQueue.Nodup ∧
    (queued (clipOf .ready 1)).recordAt E12 = some (recordOf .waiting) ∧
    (queued (clipOf .ready 1)).clipAt C5 = some (clipOf .ready 1) ∧
    ((queued (clipOf .ready 1)).slots.get 0).owner = none ∧ (∀ m : SlotNo, m < 0 → False) ∧
    (clipOf .ready 1).rate ≤ (queued (clipOf .ready 1)).rateLeft ∧
    (queued { clipOf .ready 1 with rate := 2400000001 }).rateLeft < 2400000001 ∧
    (queued { clipOf .ready 1 with rate := 2400000001 }).clipAt C5 = some { clipOf .ready 1 with rate := 2400000001 } :=
  ⟨⟨1024, ⟨16384, by decide, fun _ => rfl, by simp [recordOf]⟩, by decide⟩, by decide, by decide, by decide, by decide, by decide,
    by simp, by decide +kernel, by decide +kernel, by decide⟩

/-- A slot with a read of 10 samples in flight. -/
def reading (st : EmState) (demand discarded : Bool) : State :=
  onSlot (recordOf st) { StreamSlot.free with fetch := some ⟨4, E12, C5, ⟨0, 10⟩, demand, discarded⟩ }

/-- R82: a discarded read that fails is counted when it arrives; the slot does not stall, nothing is reported, and the next run
is issued. -/
theorem test_a_discarded_read_is_disregarded (demand : Bool) :
    ∃ u, exec (if demand then .demandReadDone 0 4 .uncorrectable else .runReadDone 0 4 .uncorrectable)
        (reading .onAir demand true) = .next u ∧ u.inFlight = [.readCount C5 .uncorrectable] ∧
      (u.slots.get 0).fetchState = .running ∧ (u.slots.get 0).failed = none ∧ (u.slots.get 0).window = [] := by
  have k : ∀ s : State, (s.disregardRead 0).inFlight = s.inFlight ∧
      ((s.disregardRead 0).slots.get 0).fetchState = (s.slots.get 0).fetchState ∧
      ((s.disregardRead 0).slots.get 0).failed = (s.slots.get 0).failed ∧
      ((s.disregardRead 0).slots.get 0).window = (s.slots.get 0).window := by
    intro s
    simp only [State.disregardRead, State.issueRun]
    split
    · simp [State.setSlot]
    · split <;> simp [State.setSlot, State.bumpTag]
  cases demand <;> exact ⟨_, rfl, (k _).1, (k _).2.1, (k _).2.2.1, (k _).2.2.2⟩

/-- The last 10 samples of a ONCE clip are in flight for a PRIMING record. -/
def lastRun : State :=
  onSlot (recordOf .priming) { StreamSlot.free with fetch := some ⟨4, E12, C5, ⟨16374, 10⟩, false, false⟩ }

/-- R73: the read that brings the rest of a ONCE clip completes priming, and no run follows. -/
theorem test_priming_completes :
    ∃ u, exec (.runReadDone 0 4 .clean) lastRun = .next u ∧ u.inFlight = [.readCount C5 .clean, .primed E12] ∧
      (u.slots.get 0).primed = true ∧ (u.slots.get 0).fetch = none ∧ (u.slots.get 0).nextPos = 16384 :=
  ⟨_, rfl, by decide +kernel, by decide +kernel, by decide +kernel, by decide +kernel⟩

/-- A read of a released slot is still in flight. -/
def strayRead (demand : Bool) : State := { ready with strayReads := [⟨4, E12, C5, ⟨0, 10⟩, demand, false⟩] }

/-- A read for a slot, ordinary and demand, kept and discarded; a full window and the rest of a ONCE clip; a stray read, and none. -/
theorem meets_ClipReadsFillTheWindow :
    (({ StreamSlot.free with nextPos := 16384 } : StreamSlot).completesPriming (recordOf .priming) (clipOf .ready 1) = true ∧
      (∀ ws, 8192 ≤ ws.length →
        ({ StreamSlot.free with window := ws } : StreamSlot).completesPriming (recordOf .priming) (clipOf .ready 1) = true) ∧
      (∃ ws : List WindowSample, 8192 ≤ ws.length) ∧
      (StreamSlot.free.completesPriming (recordOf .priming) (clipOf .ready 1) = false) ∧
      ({ StreamSlot.free with nextPos := 16384 } : StreamSlot).completesPriming (recordOf .onAir) (clipOf .ready 1) = false) ∧
    (∀ demand, (strayRead demand).strayReads = [] ++ ⟨4, E12, C5, ⟨0, 10⟩, demand, false⟩ :: [] ∧
      (∀ f, ((strayRead demand).slots.get 0).fetch = some f → f.tag ≠ 4 ∨ f.demand ≠ demand)) ∧
    (∀ f ∈ ready.strayReads, f.tag ≠ 4 ∨ f.demand ≠ true) ∧
    ∀ st demand b, ((reading st demand b).slots.get 0).fetch = some ⟨4, E12, C5, ⟨0, 10⟩, demand, b⟩ ∧
      ((reading st demand b).slots.get 0).owner = some E12 ∧ (reading st demand b).recordAt E12 = some (recordOf st) ∧
      (reading st demand b).clipAt (recordOf st).clip = some (clipOf .ready 1) :=
  ⟨⟨by decide, fun ws e => by simp [StreamSlot.completesPriming, recordOf, StreamSlot.free, e],
      ⟨List.replicate 8192 ⟨0, ⟨0, 0⟩⟩, List.length_replicate.ge⟩, by decide, by decide⟩,
    fun _ => ⟨rfl, fun f e => by simp [strayRead, ready, State.reset, StreamSlot.free] at e⟩,
    fun f e => by simp [ready, State.reset] at e,
    fun st _ _ => ⟨by simp [reading, onSlot, State.setSlot], by simp [reading, onSlot, State.setSlot],
      withRecord_record (recordOf st), withRecord_clip (recordOf st)⟩⟩

/-- An emptied STALLED slot with its failed run. -/
def stalledSlot : StreamSlot := { StreamSlot.free with fetchState := .stalled, failed := some ⟨0, 10⟩ }

/-- R87: an emptied STALLED slot plays a gap zero and issues the demand read of its failed run. -/
theorem test_gap_issues_the_demand_read :
    ∃ u, exec (.slotOutputSample 0) (onSlot (recordOf .onAir) stalledSlot) = .next u ∧
      (u.slots.get 0).fetch = some ⟨ready.nextTag, E12, C5, ⟨0, 10⟩, true, false⟩ ∧ (u.slots.get 0).fetchState = .demand ∧
      (u.recordAt E12).map (·.gapSamples) = some 1 := ⟨_, rfl, by decide +kernel, by decide +kernel, by decide +kernel⟩

/-- A record that a change to LOOP has left at the clip length, and the record from which its next sample is played. -/
def pastEnd : Record := { recordOf .onAir with loop := .loop 5 2000, playPosition := 16384, passCount := 7 }

def wrapped : Record := { pastEnd with playPosition := 5, passCount := 8 }

/-- R82: such a record plays the sample of the loop start, with the pass count raised. -/
theorem test_wrap_at_the_clip_length :
    ∃ u, exec (.slotOutputSample 0) (onSlot pastEnd { stalledSlot with window := [⟨5, ⟨3, 4⟩⟩] }) = .next u ∧
      (u.recordAt E12).map (fun r => (r.playPosition, r.passCount, r.advance)) = some (6, 8, 1) :=
  ⟨_, rfl, by decide +kernel⟩

/-- A sounding record with a window, in the tail, and in a gap; one within its clip, and one that has to wrap. -/
theorem meets_AnOutputSampleIsPlayed :
    ((recordOf .onAir).Wraps (recordOf .onAir) (clipOf .ready 1) ∧ pastEnd.Wraps wrapped (clipOf .ready 1) ∧
      (∀ x, (onSlot pastEnd x).clipAt wrapped.clip = some (clipOf .ready 1)) ∧ wrapped.state.sounds = true) ∧
    (∀ r x, (onSlot r x).recordAt E12 = some r ∧ ((onSlot r x).slots.get 0).owner = some E12 ∧
      ((onSlot r x).slots.get 0).window = x.window ∧ ((onSlot r x).slots.get 0).tail = x.tail ∧
      ((onSlot r x).slots.get 0).fetchState = x.fetchState ∧ ((onSlot r x).slots.get 0).failed = x.failed ∧
      ((onSlot r x).slots.get 0).endFound = x.endFound) ∧
    (∀ st x, (onSlot (recordOf st) x).clipAt C5 = some (clipOf .ready 1)) ∧ (recordOf .fading).state.sounds = true ∧
    (recordOf .onAir).loop = .once ∧ { recordOf .onAir with playPosition := 16383 }.playPosition < (clipOf .ready 1).length ∧
    { recordOf .onAir with playPosition := 16383 }.playPosition + 1 = (clipOf .ready 1).length ∧
    FetchState.stalled ≠ .running ∧ FetchState.demand ≠ .running ∧
    (((onSlot (recordOf .onAir) stalledSlot).slots.get 0).failed = some ⟨0, 10⟩ ∧ stalledSlot.fetchState = .stalled) ∧
    ((recordOf .onAir).ports.getLsbD 0 = true ∧ (recordOf .onAir).ports.getLsbD 1 = false) :=
  ⟨⟨.inl ⟨by decide, rfl⟩, .inr ⟨by decide, 5, 2000, rfl, by decide, by decide⟩, fun _ => withRecord_clip pastEnd, by decide⟩,
    fun r x => ⟨withRecord_record r, by simp [onSlot, State.setSlot], by simp [onSlot, State.setSlot],
      by simp [onSlot, State.setSlot], by simp [onSlot, State.setSlot], by simp [onSlot, State.setSlot],
      by simp [onSlot, State.setSlot]⟩,
    fun st _ => withRecord_clip (recordOf st), by decide, by decide, by decide, by decide, by decide, by decide,
    ⟨by simp [onSlot, State.setSlot, stalledSlot], rfl⟩, by decide, by decide⟩

theorem meets_ReadReportsMarkTheRecord :
    (∀ st m, (sending (withRecord (recordOf st)) m).recordAt E12 = some (recordOf st) ∧
      m ∈ (sending (withRecord (recordOf st)) m).inFlight) ∧
    (recordOf .priming).state.holdsSlot = true ∧ (recordOf .faulted).state.holdsSlot = false :=
  ⟨fun st _ => ⟨withRecord_record (recordOf st), sending_mem _ _⟩, by decide, by decide⟩

/-! ### The clip catalog -/

/-- The longest clip of one page beside an empty catalog, and beside a clip on the page. -/
theorem meets_DefineClipTakesAnEmptySlot :
    (∀ q s, s.walk = none → (asked s 1 (.defineClip q) 0).Handed 1 (.defineClip q) anyFlag) ∧
    (65535 + 1 ≤ 65536 ∧ (16384 : BitVec 32).toNat ≤ 1 * 16384 ∧ 1000000 ≤ (1000000 : BitVec 32).toNat ∧
      (80000000 : BitVec 32).toNat ≤ 80000000) ∧
    ((ready.clips.get 0).clip = none ∧ ∀ j, j < (0 : ClipNo) → (ready.clips.get j).clip.isSome = true) ∧
    (∀ j, (ready.clips.get j).clip = none) ∧ ((withClip (clipOf .ready 1)).clips.get 5).clip = some (clipOf .ready 1) ∧
    ((clipOf .ready 1).basePage ≤ 0 ∧ 0 < (clipOf .ready 1).basePage + (clipOf .ready 1).pageCount) :=
  ⟨fun _ _ w => asked_handed _ _ _ _ _ w rfl, by decide, ⟨by decide, by simp⟩,
    fun j => by simp [ready, State.reset, ClipSlot.initial], by decide, by decide⟩

/-- A DEFINED clip, a READY one with and without a reference, a LOADING and a DRAINING one. -/
theorem meets_LoadClipHoldsTheUnit :
    (∀ st n, (asked (withClip (clipOf st n)) 1 (.loadClip ⟨raw 5 1, 0x1000, true⟩) 0).Handed 1
        (.loadClip ⟨raw 5 1, 0x1000, true⟩) anyFlag ∧
      (withClip (clipOf st n)).clipAt C5 = some (clipOf st n) ∧ (clipOf st n).state = st ∧ (clipOf st n).refs = n) ∧
    (0x1000 : BitVec 64).toNat % 4 = 0 ∧ (0x1000 : BitVec 64).toNat + 4 * (clipOf .defined 0).length ≤ 2 ^ 64 ∧
    windowAllows (some .unrestricted) 0x1000 (4 * 16384) = true ∧ ((withClip (clipOf .defined 0)).copy = none) ∧
    (withClip (clipOf .defined 0)).loadQueue = [] ∧ loading.copy = some ⟨⟨C5, 1, 0x1000, true⟩, 7, crcInit, 4⟩ :=
  ⟨fun _ _ => ⟨asked_handed _ _ _ _ _ rfl rfl, withClip_clip _, rfl, rfl⟩, by decide, by decide, by decide, by decide, by decide,
    rfl⟩

theorem meets_ACopyFillsTheClip :
    loading.copy = some ⟨⟨C5, 1, 0x1000, true⟩, 7, crcInit, 4⟩ ∧ loading.clipAt C5 = some (clipOf .loading 0) ∧
    (clipOf .loading 0).state = .loading ∧
    ([1, 2, 3, 4] : List Byte).length % 4 = 0 ∧ 7 + ([1, 2, 3, 4] : List Byte).length / 4 ≤ (clipOf .loading 0).length ∧
    5 ≠ 4 ∧ (7 : Nat) ≠ (clipOf .loading 0).length ∧
    (loadingTwo.copy = some ⟨⟨C5, 1, 0x1000, true⟩, 7, crcInit, 4⟩ ∧ loadingTwo.loadQueue = ⟨⟨7, 1⟩, 2, 0x8000, false⟩ :: [] ∧
      loadingTwo.clipAt C5 = some (clipOf .loading 0) ∧ loadingTwo.clipAt ⟨7, 1⟩ = some otherClip ∧ 0 < otherClip.length) ∧
    16383 + ([1, 2, 3, 4] : List Byte).length / 4 = (clipOf .loading 0).length :=
  ⟨rfl, withClip_clip _, by decide, by decide, by decide, by decide, by decide, ⟨rfl, rfl, by decide, by decide, by decide⟩,
    by decide⟩

theorem meets_RetireClipActsByState :
    (∀ st n, (asked (withClip (clipOf st n)) 1 (.retireClip (raw 5 1)) 0).Handed 1 (.retireClip (raw 5 1)) anyFlag ∧
      (asked (withClip (clipOf st n)) 1 (.retireClip (raw 5 1)) 0).clipAt C5 = some (clipOf st n) ∧ (clipOf st n).state = st) ∧
    C5 = (raw 5 1).clip ∧ (1 : Lane) = (clipOf .ready 0).lane ∧ 0 < (clipOf .ready 1).refs ∧
    ((asked loading 0 (.retireClip (raw 5 1)) 0).Handed 0 (.retireClip (raw 5 1)) anyFlag ∧
      loading.copy = some ⟨⟨C5, 1, 0x1000, true⟩, 7, crcInit, 4⟩ ∧ loading.clipAt C5 = some (clipOf .loading 0)) ∧
    ((asked queuedBehind 0 (.retireClip (raw 5 1)) 0).Handed 0 (.retireClip (raw 5 1)) anyFlag ∧
      queuedBehind.clipAt C5 = some (clipOf .loading 0) ∧
      queuedBehind.copy = some ⟨⟨⟨7, 1⟩, 2, 0x8000, false⟩, 7, crcInit, 4⟩ ∧ (⟨7, 1⟩ : ClipHandle) ≠ C5 ∧
      queuedBehind.loadQueue.find? (fun z => z.clip == C5) = some ⟨C5, 1, 0x1000, true⟩) ∧
    (loading.loadQueue.filter (fun z => z.clip != C5) = [] ∧
      loadingTwo.loadQueue.filter (fun z => z.clip != C5) = ⟨⟨7, 1⟩, 2, 0x8000, false⟩ :: [] ∧
      (asked loadingTwo 0 (.retireClip (raw 5 1)) 0).Handed 0 (.retireClip (raw 5 1)) anyFlag ∧
      loadingTwo.copy = some ⟨⟨C5, 1, 0x1000, true⟩, 7, crcInit, 4⟩ ∧
      loadingTwo.clipAt ⟨7, 1⟩ = some otherClip ∧ 0 < otherClip.length) ∧
    (({ queuedBehind with copy := none } : State).copy = none ∧
      ({ queuedBehind with copy := none } : State).loadQueue.find? (fun z => z.clip == C5) = some ⟨C5, 1, 0x1000, true⟩) :=
  ⟨fun _ _ => ⟨asked_handed _ _ _ _ _ rfl rfl, withClip_clip _, rfl⟩, by decide, by decide, by decide,
    ⟨asked_handed _ _ _ _ _ rfl rfl, rfl, by decide⟩, ⟨asked_handed _ _ _ _ _ rfl rfl, by decide, rfl, by decide, by decide⟩,
    ⟨rfl, rfl, asked_handed _ _ _ _ _ rfl rfl, rfl, by decide, by decide⟩, rfl, by decide⟩

/-- R141: the clip that the engine copies is retired, and the engine takes the next load of the queue. -/
theorem test_retire_takes_the_next_load :
    ∃ u, exec (.retireClip 0 (raw 5 1)) (asked loadingTwo 0 (.retireClip (raw 5 1)) 0) = .next u ∧
      u.inFlight = [.heldDone 1 ⟨.aborted, .copied 7⟩ 7] ∧
      u.copy = some ⟨⟨⟨7, 1⟩, 2, 0x8000, false⟩, 0, crcInit, loadingTwo.nextTag⟩ ∧ u.loadQueue = [] ∧
      u.sent.head? = some (.hostRead loadingTwo.nextTag 0x8000 65536) :=
  ⟨_, rfl, by decide +kernel, by decide +kernel, by decide +kernel, by decide +kernel⟩

/-- The counts at 0 and at their maximum; one and two references. -/
theorem meets_ClipCountsRiseAndFall :
    (∀ c o, .readCount C5 o ∈ (sending (withClip c) (.readCount C5 o)).inFlight ∧
      (sending (withClip c) (.readCount C5 o)).clipAt C5 = some c) ∧
    ready.clipAt C5 = none ∧ ReadOutcome.corrected ≠ .clean ∧ 1 < (clipOf .draining 2).refs ∧ (clipOf .draining 1).refs ≤ 1 ∧
    (clipOf .draining 1).state = .draining ∧
    (∀ c : Clip, (withClip c).clipAt C5 = some c ∧ (withClip c).holders C5 = 0) ∧
    ((withRecord (recordOf .onAir)).clipAt C5 = some (clipOf .ready 1) ∧
      (clipOf .ready 1).refs ≤ (withRecord (recordOf .onAir)).holders C5) :=
  ⟨fun c _ => ⟨sending_mem _ _, withClip_clip c⟩, by decide, by decide, by decide, by decide, by decide,
    fun c => ⟨withClip_clip c, show ready.holders C5 = 0 by decide +kernel⟩, withRecord_clip _, by decide +kernel⟩

/-! ### Ports -/

/-- Port 0 READY with an output setting and one member. -/
def emitting (o : OutputSetting) : State :=
  let s := withClip (clipOf .ready 1)
  s.setPort 0 { s.ports.get 0 with output := o, members := [⟨E12, 100, []⟩] }

/-- A member with a hand-over for its one path, of weight 100. -/
def aMember : Member := ⟨E12, 100, [⟨⟨1024, -1024⟩, 0⟩]⟩

/-- R33 and R150: the member of a sounding record is its path's sample times its weight; of a PAUSED one it is zero. -/
theorem test_member_sum :
    (withRecord (recordOf .onAir)).memberSum aMember = ⟨100, -100⟩ ∧ (withRecord (recordOf .paused)).memberSum aMember = ⟨0, 0⟩ := by
  decide +kernel

/-- Port 0 with any output setting; the record of member E12 FADING until the time 5, and one that is PAUSED. -/
theorem meets_AnOutputSampleGoesToTheHead :
    (∀ o, ((emitting o).ports.get 0).head = .ready ∧ ((emitting o).ports.get 0).exchange = none ∧
      ((emitting o).ports.get 0).output = o) ∧
    (ready.ports.get 0).head ≠ .ready ∧
    ((withRecord (recordOf .paused)).recordAt E12 = some (recordOf .paused) ∧ (recordOf .paused).state ≠ .onAir ∧
      (recordOf .paused).state ≠ .fading) ∧ (recordOf .onAir).state = .onAir ∧
    ((withRecord (recordOf .onAir)).recordAt aMember.handle = some (recordOf .onAir) ∧
      (recordOf .onAir).paths.length = 1 ∧ aMember.handOver.length = 1) ∧
    ({ recordOf .fading with ramp := some ⟨10000, 5⟩ }.state = .fading ∧
      { recordOf .fading with ramp := some ⟨10000, 5⟩ }.ramp = some ⟨10000, 5⟩ ∧ ¬ (5 : Int) ≤ ready.now ∧
      (0 : Int) ≤ ready.now) :=
  ⟨fun o => ⟨rfl, rfl, rfl⟩, by decide, ⟨withRecord_record _, by decide, by decide⟩, rfl, ⟨withRecord_record _, rfl, rfl⟩, rfl, rfl,
    by decide, by decide⟩

theorem meets_AnOutputSettingWaitsForItsFrame :
    (asked (withClip (clipOf .ready 1)) 1 (.setOutput ⟨0, true, false, 32⟩) 0).Handed 1 (.setOutput ⟨0, true, false, 32⟩) anyFlag ∧
    (0 : BitVec 8).toNat = (0 : Port).val ∧ (1 : Lane) = ((withClip (clipOf .ready 1)).ports.get 0).owner ∧
    ready.outstanding (.outputChange 0) = false ∧ (sending ready (.expiry (.outputChange 0))).outstanding (.outputChange 0) = true ∧
    ((sending ready (.expiry (.outputChange 0))).timer.find? (fun y => y.kind == .outputChange 0) = none ∧
      ({ ready with timer := [⟨.outputChange 0, 10000⟩] } : State).outstanding (.outputChange 0) = true ∧
      ({ ready with timer := [⟨.outputChange 0, 10000⟩] } : State).timer.find? (fun y => y.kind == .outputChange 0) =
        some ⟨.outputChange 0, 10000⟩) ∧
    .expiry (.outputChange 0) ∈ (sending ready (.expiry (.outputChange 0))).inFlight :=
  ⟨asked_handed _ _ _ _ _ rfl rfl, by decide, by decide, by decide, by decide, by decide, sending_mem _ _⟩

/-- Port 0 with an exchange in flight. -/
def exchanging (kind : ExchangeKind) (f : ExchangeFor) (faulted : Bool) : State :=
  let s := withClip (clipOf .ready 0)
  s.setPort 0 { s.ports.get 0 with exchange := some ⟨kind, 5, f, 1, 0, faulted⟩, tag := 5 }

/-- A CONFIGURE_PORT of port 0 that has told port 1 too; port 1 has its exchange still in flight, or has answered. -/
def configuringTwo (other : Bool) : State :=
  let s := exchanging .setRate (.configure 1 0) false
  let s := s.setPort 0 { s.ports.get 0 with job := some ⟨1, [0, 1], []⟩ }
  s.setPort 1 { s.ports.get 1 with exchange := if other then some ⟨.setRate, 9, .configure 1 0, 1, 0, false⟩ else none }

/-- Port 0 of lane 1 with two followers, of which port 1 is fitted. -/
def followed : State :=
  let s := withClip (clipOf .ready 0)
  let s := s.setPort 1 { s.ports.get 1 with owner := 1, clock := .follow 0, head := .ready }
  s.setPort 2 { s.ports.get 2 with clock := .follow 0 }

/-- Ports 0 and 1 of lane 1 are fitted, and no port follows another. -/
def withTwo : State :=
  let s := withClip (clipOf .ready 0)
  s.setPort 1 { s.ports.get 1 with owner := 1, head := .ready }

/-- R160: a follower that is told keeps its clock source, its owner and its budget, and one with an UNFITTED head is not told. -/
theorem test_configure_keeps_the_followers :
    ∃ u, exec (.configurePort 1 ⟨0, .synth 8, 1, 256⟩) (asked followed 1 (.configurePort ⟨0, .synth 8, 1, 256⟩) 0) = .next u ∧
      u.ports.get 1 = { followed.ports.get 1 with
        tag := 1, exchange := some ⟨.setRate, 1, .configure 1 0, 50000, 0, false⟩ } ∧
      u.ports.get 2 = followed.ports.get 2 ∧ u.sent.length = followed.sent.length + 2 :=
  ⟨_, rfl, by decide +kernel, by decide +kernel, by decide +kernel⟩

/-- A followed port, a port that follows another, and the least EXTERNAL rate. -/
theorem meets_ConfigureTellsTheHeads_sources :
    (followed.followSound ∧ (followed.ports.get 1).clock = .follow 0 ∧ (followed.ports.get 1).head ≠ .unfitted ∧
      followed.checkConfigure 1 ⟨0, .synth 16, 1, 8192⟩ = .ok ⟨0, 1, .synth 16, 8192⟩ ∧
      (asked followed 1 (.configurePort ⟨0, .synth 16, 1, 8192⟩) 0).Handed 1 (.configurePort ⟨0, .synth 16, 1, 8192⟩)
        anyFlag) ∧
    withTwo.checkConfigure 0 ⟨1, .external 1000000, 3, 256⟩ = .ok ⟨1, 3, .external 1000000, 256⟩ ∧
    (withTwo.followSound ∧ withTwo.checkConfigure 1 ⟨1, .follow 0, 1, 256⟩ = .ok ⟨1, 1, .follow 0, 256⟩) := by
  have f : ∀ p k, (followed.ports.get p).clock = .follow k → k = 0 ∧ p ≠ 0 := by
    intro p k
    revert p k
    decide +kernel
  have g : ∀ p k, (withTwo.ports.get p).clock ≠ .follow k := by decide +kernel
  refine ⟨⟨fun p k e => ⟨fun n => (f p k e).2 (n ▸ (f p k e).1), fun j n => ?_⟩, by decide, by decide, rfl,
    asked_handed _ _ _ _ _ rfl rfl⟩, rfl, fun p k e => absurd e (g p k), rfl⟩
  exact absurd (f _ _ n).2 (by simp [(f p k e).1])

/-- Port 0 of lane 1 takes the divider 8; an exchange that is not the last, and one that is, in time and timed out. -/
theorem meets_ConfigureTellsTheHeads :
    (asked (withClip (clipOf .ready 0)) 1 (.configurePort ⟨0, .synth 8, 1, 256⟩) 0).Handed 1
      (.configurePort ⟨0, .synth 8, 1, 256⟩) anyFlag ∧
    (withClip (clipOf .ready 0)).followSound ∧
    (withClip (clipOf .ready 0)).checkConfigure 1 ⟨0, .synth 8, 1, 256⟩ = .ok ⟨0, 1, .synth 8, 256⟩ ∧
    (∀ b, ((configuringTwo b).ports.get 0).exchange = some ⟨.setRate, 5, .configure 1 0, 1, 0, false⟩ ∧
      ((configuringTwo b).ports.get 0).job = some ⟨1, [0, 1], []⟩ ∧ (configuringTwo b).refTime < 1 ∧
      (configuringTwo b).phase = .ready ∧ 1 ≤ ({ configuringTwo b with refTime := 1 } : State).refTime) ∧
    ((configuringTwo true).ports.get 1).exchange = some ⟨.setRate, 9, .configure 1 0, 1, 0, false⟩ ∧
    (configuringTwo true).othersConfiguring ⟨1, [0, 1], []⟩ 0 0 ∧ ¬ (configuringTwo false).othersConfiguring ⟨1, [0, 1], []⟩ 0 0 := by
  refine ⟨asked_handed _ _ _ _ _ rfl rfl, ?_, rfl, by decide, by decide, ⟨1, by decide, by decide, by decide⟩,
    fun ⟨k, m, n, e⟩ => ?_⟩
  rotate_left
  · simp only [List.mem_cons, List.not_mem_nil, or_false] at m
    rcases m with rfl | rfl
    · exact n rfl
    · exact absurd e (by decide)
  have h : ∀ p, ((withClip (clipOf .ready 0)).ports.get p).clock = .synth (if p = 0 then 16 else 2) := by decide
  intro p k e
  rw [h] at e
  cases e

theorem meets_AnAnsweredExchangeBringsTheHeadUp :
    (∀ s, s.walk = none → (asked s 1 (.restartPort 0) 0).Handed 1 (.restartPort 0) anyFlag) ∧
    (0 : BitVec 8).toNat = (0 : Port).val ∧ (1 : Lane) = ((withClip (clipOf .ready 0)).ports.get 0).owner ∧
    ((withClip (clipOf .ready 0)).ports.get 0).exchange = none ∧
    (∀ kind b, ((exchanging kind (.restart 1) b).ports.get 0).exchange = some ⟨kind, 5, .restart 1, 1, 0, b⟩ ∧
      (exchanging kind (.restart 1) b).refTime < 1 ∧ (exchanging kind (.restart 1) b).phase = .ready) ∧
    ((exchanging .probe (.restart 1) false).portRate 0 ≤ 5000000 ∧ 4999999 < (exchanging .probe (.restart 1) false).portRate 0) ∧
    (5 : BitVec 8) ≠ 6 ∧ ExchangeFor.restart 1 ≠ .startUp :=
  ⟨fun _ w => asked_handed _ _ _ _ _ w rfl, by decide, by decide, by decide,
    fun kind b => ⟨by simp [exchanging, State.setPort], by simp [exchanging, withClip, ready, State.reset, State.setPort, State.setClip],
      rfl⟩, by decide, by decide, by decide⟩

/-- An UNFITTED head whose PROBE has run out. -/
def lostHead : State :=
  let s := exchanging .probe (.restart 1) false
  { s.setPort 0 { s.ports.get 0 with head := .unfitted } with refTime := 1 }

/-- A head whose SET_RATE of start-up is in flight. -/
def startingHead : State := { exchanging .setRate .startUp false with phase := .probing }

/-- R157 and R190: a status message during start-up puts the head in FAULT and raises no attention. -/
theorem test_head_fault_while_starting :
    ∃ u, exec (.headStatusMessage 0 false .lockLost 9) startingHead = .next u ∧ (u.ports.get 0).head = .fault ∧
      (u.ports.get 0).attention = false ∧ u.units = startingHead.units ∧ u.sent = startingHead.sent :=
  ⟨_, rfl, by decide +kernel, by decide +kernel, by decide +kernel, by decide +kernel⟩

theorem meets_AHeadFaultIsRecorded :
    (∀ kind b, ((exchanging kind (.restart 1) b).ports.get 0).exchange = some ⟨kind, 5, .restart 1, 1, 0, b⟩ ∧
      1 ≤ ({ exchanging kind (.restart 1) b with refTime := 1 } : State).refTime ∧
      (exchanging kind (.restart 1) b).phase = .ready) ∧
    (ready.ports.get 0).head = .unfitted ∧ ((withClip (clipOf .ready 0)).ports.get 0).head ≠ .unfitted ∧
    ((withClip (clipOf .ready 0)).ports.get 0).exchange = none ∧ StatusCondition.lockLost ≠ .none ∧
    ((exchanging .probe (.restart 1) false).ports.get 0).head ≠ .unfitted ∧
    ((lostHead.ports.get 0).exchange = some ⟨.probe, 5, .restart 1, 1, 0, false⟩ ∧ (lostHead.ports.get 0).head = .unfitted ∧
      1 ≤ lostHead.refTime ∧ lostHead.phase = .ready) ∧
    (startingHead.phase ≠ .ready ∧ (startingHead.ports.get 0).head ≠ .unfitted ∧
      ∀ x, (startingHead.ports.get 0).exchange = some x → x.purpose = .startUp → x.kind = .setRate) :=
  ⟨fun kind b => ⟨by simp [exchanging, State.setPort], Nat.le_refl _, rfl⟩, by decide, by decide, by decide, by decide, by decide,
    by decide, by decide, by decide, fun x e _ => by
      rw [show (startingHead.ports.get 0).exchange = some ⟨.setRate, 5, .startUp, 1, 0, false⟩ by decide] at e
      cases e
      rfl⟩

/-! ### SCAN, SET_LANE and start-up -/

/-- A record of lane 1 with its attention flag set, and the visit of lane 1 with CLEAR that finds it. -/
def noticed : State := withRecord { recordOf .onAir with attention := true }

def noticedWalk (room : Nat) : ScanWalk := ⟨1, true, .emitters, 0, [], 0, room⟩

/-- The last slot of a class, and a visit that stands at a class with CLEAR and has room for what it finds. -/
theorem meets_AScanVisitsEveryClass :
    (∀ first c, (asked ready 1 (.scan first) (if c then 8 else 0)).Handed 1 (.scan first) fun h => h.clear == c) ∧
    95 < scanRange .emitters ∧ scanRange .ports ≤ 8 ∧
    (∀ w, ({ ready with walk := some (.scan w) } : State).walk = some (.scan w)) ∧
    (noticed.scanFound (noticedWalk 0) = [(12, .emitter E12 .onAir {})] ∧ (noticedWalk 0).clear = true ∧
      fitCount (Config.scanEntryWords 0 + 1) 0 [(12, .emitter E12 .onAir {})] = 1 ∧ noticed.recordAt E12 =
        some { recordOf .onAir with attention := true }) :=
  ⟨fun _ c => asked_handed _ _ _ _ _ rfl
      (show ((if c then 8 else 0 : BitVec 8).getLsbD 3 == c) = true by cases c <;> decide), by decide, by decide, fun _ => rfl,
    by decide +kernel, rfl, by simp [fitCount, ScanEntry.words], withRecord_record { recordOf .onAir with attention := true }⟩

/-- A SET_LANE for the window and interval of L3, with a setting of trigger 7 at the end of its ranges. -/
def laneReq : SetLaneReq := ⟨3, some (5, 5), some 10000, [⟨7, .falling, 255, 3⟩]⟩

/-- R183: its three parts, in order. -/
theorem test_set_lane_parts :
    checkSetLane 0 laneReq = .ok [.window 3 ⟨5, 5⟩, .interval 3 10000, .triggers [⟨7, .falling, 255, 3⟩]] := rfl

/-- Trigger 7 with its line HIGH against a LOW settled level for 10 ticks, less than its qualification time. -/
def heldShort : State := ready.setTrigger 7 { ready.triggers.get 7 with line := true, candidate := some (-10) }

/-- R58 and R183: a candidate that the new qualification time finds held long enough settles within the event, at its scene time; one
that the old time has run out settles with the old setting, at its own time. -/
theorem test_set_lane_qualifies :
    let t := heldShort.takePart (.triggers [⟨7, .rising, 1, 3⟩])
    let v := heldHigh.takePart (.triggers [⟨7, .falling, 255, 3⟩])
    t.inFlight = [.edge 7 0] ∧ (t.triggers.get 7).settled = true ∧ (t.triggers.get 7).candidate = none ∧
    v.inFlight = [.edge 7 0] ∧ (v.triggers.get 7).edge = .falling ∧ (v.triggers.get 7).settled = true := by decide +kernel

/-- A SET_LANE of L0, and of another lane, with all three parts; a walk before its last part; a candidate that the old qualification
time has run out, one that a new one has, and one that neither has. -/
theorem meets_SetLaneHandsItsPartsOn :
    (∀ l : Lane, (asked ready l (.setLane laneReq) 0).Handed l (.setLane laneReq) anyFlag) ∧
    List.Forall₂ (fun (f : TriggerField) (x : TriggerSetting) =>
      f.trigger.toNat = x.trigger.val ∧ (f.edge = .rising ∧ x.edge = .rising ∨ f.edge = .falling ∧ x.edge = .falling) ∧
        1 ≤ f.qualification ∧ f.qualification ≤ 255 ∧ x.qualification = f.qualification ∧
        f.owner.toNat = x.owner.val) laneReq.triggers [⟨7, .falling, 255, 3⟩] ∧
    (laneReq.triggers.map (·.trigger)).Nodup ∧
    ((heldHigh.triggers.get 7).candidate = some (-20) ∧ (heldHigh.triggers.get 7).line ≠ (heldHigh.triggers.get 7).settled ∧
      (-20) + 10 * ((heldHigh.triggers.get 7).qualification : Int) ≤ heldHigh.now) ∧
    ((heldShort.triggers.get 7).candidate = some (-10) ∧ (heldShort.triggers.get 7).line ≠ (heldShort.triggers.get 7).settled ∧
      heldShort.now < (-10) + 10 * ((heldShort.triggers.get 7).qualification : Int) ∧ (-10) + 10 * (1 : Int) ≤ heldShort.now ∧
      heldShort.now < (-10) + 10 * (255 : Int)) ∧
    (3 : BitVec 8).toNat = (3 : Lane).val ∧ (3 : Lane) ≠ 0 ∧ (5 : BitVec 64).toNat ≤ (5 : BitVec 64).toNat ∧ 10000 ≤ 10000 ∧
    (∀ x y, ({ ready with walk := some (.setLane 0 (x :: y)) } : State).walk = some (.setLane 0 (x :: y))) ∧
    ([(⟨0, .rising, 1, 1⟩ : TriggerSetting), ⟨1, .falling, 255, 1⟩].map (·.trigger)).Nodup :=
  ⟨fun _ => asked_handed _ _ _ _ _ rfl rfl, .cons (by decide) .nil, by decide, by decide, by decide, by decide, by decide, by decide,
    by decide, fun _ _ => rfl, by decide⟩

/-- A PORTS, a TRIGGERS and a LANES entry with values at the ends of their ranges. -/
theorem test_profile_entries :
    portSetting [0, 0, 16, 3, 0, 1, 0, 0, 0, 0, 0, 0] = some ⟨0, .synth 16, 3, 256⟩ ∧
    portSetting [7, 1, 6, 0, 0, 32, 0, 0, 0, 0, 0, 0] = some ⟨7, .follow 6, 0, 8192⟩ ∧
    portSetting [7, 2, 0, 0, 0, 32, 0, 0, 64, 66, 15, 0] = some ⟨7, .external 1000000, 0, 8192⟩ ∧
    portSetting [8, 0, 16, 3, 0, 1, 0, 0, 0, 0, 0, 0] = none ∧
    profileTrigger [7, 1, 255, 3] = some ⟨7, .falling, 255, 3⟩ ∧ profileTrigger [7, 1, 0, 3] = none ∧
    laneSetting (0 :: 0 :: 16 :: 39 :: List.replicate 20 0) = some ⟨0, none, 10000⟩ ∧
    laneSetting (3 :: 1 :: List.replicate 22 0) = some ⟨3, some ⟨0, 0⟩, 0⟩ ∧
    laneSetting (0 :: 1 :: List.replicate 22 0) = none := by decide +kernel

/-- One section, of a port that follows port 6. -/
def portsBody : List Byte := [7, 1, 6, 0, 0, 32, 0, 0, 0, 0, 0, 0]

/-- A good section is taken; one of an unknown kind is skipped. -/
theorem test_profile_sections :
    (State.takeSections 1 (1 :: 0 :: 12 :: 0 :: portsBody) State.reset).ports.get 7 =
      { State.reset.ports.get 7 with clock := .follow 6, budget := 8192 } ∧
    (State.takeSections 1 (1 :: 0 :: 12 :: 0 :: portsBody) State.reset).profilePartial = false ∧
    State.takeSections 1 (4 :: 0 :: 12 :: 0 :: portsBody) State.reset = { State.reset with profilePartial := true } := by
  decide +kernel

/-- The read just issued, and its time just run out; a block that is no profile, and the shortest good one. -/
theorem meets_TheProfileIsSettledAndTheHeadsProbed :
    State.reset.phase = .readingProfile 0 0 ∧ State.reset.refTime < 0 + 50000 ∧
    ({ State.reset with refTime := 50000 } : State).phase = .readingProfile 0 0 ∧
    0 + 50000 ≤ ({ State.reset with refTime := 50000 } : State).refTime ∧ profileGood [] = false ∧
    16 ≤ (List.replicate 16 (0 : Byte)).length ∧
    (({ State.reset with phase := .readingBlock 1 7 16 } : State).phase = .readingBlock 1 7 16 ∧
      ({ State.reset with phase := .readingBlock 1 7 16 } : State).refTime < 7 + 50000) ∧
    (∃ t, State.reset.applySection 1 0 portsBody = some t) ∧ State.reset.applySection 1 1 portsBody = none ∧
    (let body : List Byte := [0, 0, 0, 0, 0, 0, 0, 0]
     let crc := crc32 body
     let block : List Byte := ([16, 0, 1, 0] : List Byte) ++ ([crc.setWidth 8, (crc >>> 8).setWidth 8, (crc >>> 16).setWidth 8, (crc >>> 24).setWidth 8] : List Byte) ++ body
     profileGood block = true ∧ fieldAt block 8 2 = 0 ∧ 16 ≤ block.length) := by
  refine ⟨by decide, by decide, by decide, by decide, by decide, by decide, by decide, ?_, by decide +kernel, by decide +kernel⟩
  have h : (State.reset.applySection 1 0 portsBody).isSome = true := by decide +kernel
  exact ⟨_, (Option.some_get h).symm⟩

theorem meets_TheLastHeadMakesThePartReady :
    ((exchanging .setRate .startUp false).ports.get 0).exchange = some ⟨.setRate, 5, .startUp, 1, 0, false⟩ ∧
    ({ exchanging .setRate .startUp false with phase := .probing } : State).refTime < 1 ∧
    ({ exchanging .setRate .startUp false with phase := .probing } : State).phase = .probing ∧
    (∀ k, k ≠ 0 → ((exchanging .setRate .startUp false).ports.get k).exchange = none) ∧
    (∀ kind b, ((exchanging kind .startUp b).ports.get 0).exchange = some ⟨kind, 5, .startUp, 1, 0, b⟩ ∧
      1 ≤ ({ exchanging kind .startUp b with phase := .probing, refTime := 1 } : State).refTime) ∧
    ((exchanging .probe .startUp false).portRate 0 ≤ 5000000 ∧ 4999999 < (exchanging .probe .startUp false).portRate 0) ∧
    (exchanging .setRate .startUp false).lastToStart 0 ∧
    ¬ ((exchanging .setRate .startUp false).setPort 1
        { ready.ports.get 1 with exchange := some ⟨.probe, 9, .startUp, 1, 0, false⟩ }).lastToStart 0 :=
  ⟨by decide, by decide, by decide, by decide,
    fun kind b => ⟨by simp [exchanging, State.setPort], Nat.le_refl _⟩, by decide, by unfold State.lastToStart; decide,
    by unfold State.lastToStart; decide⟩

/-! ### Invariants -/

theorem meets_EveryStepKeepsClipMemorySound : ({ ready with clipMem := [(0, 1), (4294967295, 2)] } : State).memorySound ∧
    ∃ t, step { ready with clipMem := [(0, 1), (4294967295, 2)] } = .next t :=
  ⟨⟨by decide, fun i c h => by simp [ready, State.reset, ClipSlot.initial] at h⟩, _, rfl⟩

theorem meets_EveryStepKeepsTheRateBudget : ready.rateSound ∧ ∃ t, step ready = .next t := by
  refine ⟨?_, _, rfl⟩
  unfold State.rateSound
  decide +kernel

theorem meets_EveryStepKeepsTheGenerations : ready.generationsSound ∧ ∃ t, step ready = .next t :=
  ⟨⟨fun i => by simp [ready, State.reset, Entry.initial], fun i => by simp [ready, State.reset, ClipSlot.initial],
    fun i => by simp [ready, State.reset, FadeSlot.initial]⟩, _, rfl⟩

/-- The heads are being probed; port 0 is the last. -/
def probingLast : State :=
  { State.reset.setPort 0 { State.reset.ports.get 0 with exchange := some ⟨.probe, 1, .startUp, 50000, 0, false⟩ } with
    phase := .probing }

theorem meets_EveryStepKeepsStartingQuiet : probingLast.startingQuiet ∧ probingLast.phase ≠ .ready ∧
    ∃ t, step probingLast = .next t := by
  refine ⟨fun _ => ⟨rfl, by decide, rfl, rfl, rfl, by decide, ?_, ?_, rfl, rfl, ?_, rfl, ?_, by decide⟩, by decide, _, rfl⟩
  · intro i; simp [probingLast, State.reset, State.setPort, Entry.initial]
  · intro i; simp [probingLast, State.reset, State.setPort, StreamSlot.free]
  · intro i; simp [probingLast, State.reset, State.setPort, ClipSlot.initial]
  · have h : ∀ p, ((probingLast.ports.get p).exchange.all fun x => x.purpose == .startUp) = true := by decide
    intro p x e
    have := h p
    rw [e] at this
    simpa using this

theorem meets_EveryStepKeepsLeadersAndTheSupervisor : ready.followSound ∧ ready.supervisorFree ∧ ∃ t, step ready = .next t :=
  ⟨fun p k e => by simp [ready, State.reset, PortRec.initial] at e, ⟨by decide, fun l ps t w e => by simp [ready, State.reset] at e⟩,
    _, rfl⟩

end Sys2Proof.Tests
end

section
/-!
SUPPORT. Retirement (chapter 6): what the spent procedure leaves in the table, what the move to FADING does, and what a RETIRE
that finds its record does, by the outcome of R112.
-/

namespace Sys2Proof.Machine

/-! ## The timer (R44) -/

/-- An expiry asked for a time still to come is pending. -/
theorem State.request_of_lt {s : State} {e : Expiry} {due : Int} (later : s.now < due) :
    s.request e due = { s with timer := s.timer ++ [⟨e, due⟩] } := by
  simp [State.request, not_le.2 later]

/-- An expiry touches the timer or the messages on their way, and no record. -/
@[simp] theorem State.request_entries (s : State) (e : Expiry) (due : Int) : (s.request e due).entries = s.entries := by
  rw [State.request_eq]

/-! ## The spent procedure (R117, R118) -/

/-- The record that the spent procedure leaves, with SPENT_UNREQUESTED raised where the cause asks for it (R118). -/
def State.spentRecord (s : State) (r : Record) (cause : SpentCause) : Record :=
  if cause.unrequested then
    { s.spentImage r cause with attention := true, causes := r.causes.addSpentUnrequested }
  else s.spentImage r cause

/-- The freezing of the fade gains leaves the values of the paths. -/
@[simp] theorem State.spentImage_pathVals (s : State) (r : Record) (cause : SpentCause) :
    (s.spentImage r cause).pathVals = r.pathVals := by
  simp [State.spentImage, Record.pathVals]

/-- The fields of the final record that WentSpent names. -/
theorem State.spentRecord_spec (s : State) (r : Record) (cause : SpentCause) :
    let q := s.spentRecord r cause
    q.state = .spent ∧ q.spent = some ⟨cause, r.playPosition⟩ ∧ q.staged = none ∧ q.lane = r.lane ∧ q.clip = r.clip ∧
      q.ports = r.ports ∧ q.pathVals = r.pathVals ∧ q.condition = r.condition ∧
      (q.attention, q.causes) =
        if cause.unrequested then (true, r.causes.addSpentUnrequested) else (r.attention, r.causes) := by
  have vals := s.spentImage_pathVals r cause
  unfold State.spentRecord
  split <;> exact ⟨rfl, rfl, rfl, rfl, rfl, rfl, vals, rfl, rfl⟩

/-- The beginning of the spent interval frees the entry at once where the interval is 0, and leaves the table otherwise (R21). -/
theorem State.beginSpentInterval_entries (s : State) (h : EmitterHandle) (l : Lane) :
    (s.beginSpentInterval h l).entries =
      if s.spentIntervals.get l = 0 then s.entries.set h.slot { s.entries.get h.slot with record := none } else s.entries := by
  unfold State.beginSpentInterval
  simp only
  split
  · rfl
  · exact State.request_entries _ _ _

/-- The final record is written over the one that has given its holdings back (R117, step 7). -/
theorem State.putSpentImage_entries {s : State} {h : EmitterHandle} {r : Record} (e : s.recordAt h = some r)
    (k : r.state.isHolding = true) (q : Record) :
    ((s.releaseHoldings h).putRecord h.slot q).entries =
      s.entries.set h.slot { s.entries.get h.slot with record := some q } := by
  simp [State.putRecord, State.releaseHoldings_entries e k]

/-- The attention of an unrequested end completes the final record (R118). -/
theorem State.raiseSpent_entries {s t : State} {h : EmitterHandle} {r : Record} (e : s.recordAt h = some r)
    (cause : SpentCause)
    (ht : t.entries = s.entries.set h.slot { s.entries.get h.slot with record := some (s.spentImage r cause) }) :
    (if cause.unrequested then t.raiseEmitter h .addSpentUnrequested else t).entries =
      s.entries.set h.slot { s.entries.get h.slot with record := some (s.spentRecord r cause) } := by
  have named : t.recordAt h = some (s.spentImage r cause) := by
    simp [State.recordAt, ht, (State.recordAt_some e).1]
  unfold State.spentRecord
  split
  · rw [State.raiseEmitter_entries named, ht, Table.get_set_self, Table.set_set]
    rfl
  · exact ht

/-- The spent procedure has left the spent intervals as they were when it comes to begin one (R117, R118). -/
theorem State.raiseSpent_spentIntervals (s : State) (h : EmitterHandle) (q : Record) (cause : SpentCause) :
    let t := (s.releaseHoldings h).putRecord h.slot q
    (if cause.unrequested then t.raiseEmitter h .addSpentUnrequested else t).spentIntervals = s.spentIntervals := by
  intro t
  have kept : t.spentIntervals = s.spentIntervals := by
    show (s.releaseHoldings h).spentIntervals = _
    rw [State.releaseHoldings_frame]
  split
  · rw [State.raiseEmitter_frame]
    exact kept
  · exact kept

/-- What the spent procedure does in the table, for a record in a holding state: its entry holds the final record, or, with the
spent interval 0, none. -/
theorem State.enterSpent_entries {s : State} {h : EmitterHandle} {r : Record} (e : s.recordAt h = some r)
    (k : r.state.isHolding = true) (cause : SpentCause) :
    (s.enterSpent h cause).entries =
      s.entries.set h.slot { s.entries.get h.slot with
        record := if s.spentIntervals.get r.lane = 0 then none else some (s.spentRecord r cause) } := by
  unfold State.enterSpent
  rw [e]
  simp only
  rw [State.beginSpentInterval_entries, State.raiseSpent_spentIntervals,
    State.raiseSpent_entries e cause (State.putSpentImage_entries e k _)]
  split
  · rw [Table.get_set_self, Table.set_set]
  · rfl

/-- The spent procedure takes a record in a holding state to SPENT. -/
theorem State.enterSpent_wentSpent {s : State} {h : EmitterHandle} {r : Record} (e : s.recordAt h = some r)
    (k : r.state.isHolding = true) (cause : SpentCause) : s.WentSpent (s.enterSpent h cause) h r cause := by
  have entry := State.enterSpent_entries e k cause
  have gen := (State.recordAt_some e).1
  refine ⟨by rw [entry, Table.get_set_self], by rw [entry, Table.get_set_self], fun zero => ?_, fun above => ?_⟩
  · simp [entry, zero]
  · exact ⟨s.spentRecord r cause, by simp [State.recordAt, entry, gen, above], s.spentRecord_spec r cause⟩

/-- The spent procedure leaves every other entry. -/
theorem State.enterSpent_otherEntries {s : State} {h : EmitterHandle} {r : Record} (e : s.recordAt h = some r)
    (k : r.state.isHolding = true) (cause : SpentCause) : s.otherEntries (s.enterSpent h cause) h.slot := by
  intro i ne
  rw [State.enterSpent_entries e k cause, Table.get_set_ne _ _ _ _ ne]

/-! ## The move to FADING (R113) -/

/-- The record of a ramp of `ramp` milliseconds that begins at the time `now` (R113). -/
def Record.fadingFrom (r : Record) (now : Int) (ramp : Nat) : Record :=
  { r with state := .fading, staged := none, ramp := some ⟨ramp * 10000, now + ramp * 10000⟩ }

/-- After the withdrawal of its change, the handle names the record without one. -/
theorem State.withdrawChange_recordAt {s : State} {h : EmitterHandle} {r : Record} (e : s.recordAt h = some r) :
    (s.withdrawChange h).recordAt h = some { r with staged := none } := by
  simp [State.recordAt, State.withdrawChange_entries e, (State.recordAt_some e).1]

/-- The withdrawal of a change takes no time. -/
theorem State.withdrawChange_now (s : State) (h : EmitterHandle) : (s.withdrawChange h).now = s.now := by
  rw [State.withdrawChange_frame]
  rfl

/-- What the move to FADING does, for a ramp above 0: the change withdrawn, the record put, and its ramp end pending. -/
theorem State.beginFade_eq {s : State} {h : EmitterHandle} {r : Record} (e : s.recordAt h = some r) {ramp : Nat}
    (above : 0 < ramp) :
    s.beginFade h ramp =
      { (s.withdrawChange h).putRecord h.slot (r.fadingFrom s.now ramp) with
        timer := (s.withdrawChange h).timer ++ [⟨.rampEnd h, s.now + ramp * 10000⟩] } := by
  have later : ((s.withdrawChange h).putRecord h.slot (r.fadingFrom s.now ramp)).now < s.now + ramp * 10000 := by
    show (s.withdrawChange h).now < _
    rw [State.withdrawChange_now]
    omega
  unfold State.beginFade
  simp only
  rw [State.modifyRecord_some (State.withdrawChange_recordAt e), State.withdrawChange_now]
  exact State.request_of_lt later

/-- The handle names the FADING record. -/
theorem State.beginFade_recordAt {s : State} {h : EmitterHandle} {r : Record} (e : s.recordAt h = some r) {ramp : Nat}
    (above : 0 < ramp) : (s.beginFade h ramp).recordAt h = some (r.fadingFrom s.now ramp) := by
  rw [State.beginFade_eq e above]
  exact State.recordAt_putRecord (State.withdrawChange_recordAt e) _

/-- The move to FADING leaves every other entry. -/
theorem State.beginFade_otherEntries {s : State} {h : EmitterHandle} {r : Record} (e : s.recordAt h = some r) {ramp : Nat}
    (above : 0 < ramp) : s.otherEntries (s.beginFade h ramp) h.slot := by
  intro i ne
  rw [State.beginFade_eq e above]
  calc ((s.withdrawChange h).putRecord h.slot (r.fadingFrom s.now ramp)).entries.get i
      = (s.withdrawChange h).entries.get i := State.putRecord_other _ _ _ _ ne
    _ = s.entries.get i := by rw [State.withdrawChange_entries e, Table.get_set_ne _ _ _ _ ne]

/-- The ramp end is pending. -/
theorem State.rampEnd_mem_beginFade {s : State} {h : EmitterHandle} {r : Record} (e : s.recordAt h = some r) {ramp : Nat}
    (above : 0 < ramp) : ⟨.rampEnd h, s.now + ramp * 10000⟩ ∈ (s.beginFade h ramp).timer := by
  simp [State.beginFade_eq e above]

/-- What the move to FADING may change. -/
theorem State.beginFade_frame {s : State} {h : EmitterHandle} {r : Record} (e : s.recordAt h = some r) {ramp : Nat}
    (above : 0 < ramp) :
    s.beginFade h ramp =
      { s with
        entries := (s.beginFade h ramp).entries, timer := (s.beginFade h ramp).timer,
        triggers := (s.beginFade h ramp).triggers, ports := (s.beginFade h ramp).ports } := by
  rw [State.beginFade_eq e above, State.withdrawChange_frame]
  rfl

/-! ## RETIRE (R111, R112) -/

/-- A record for which R112 has an outcome stands in a holding state. -/
theorem isHolding_of_retireOutcome {st : EmState} {ramp : Nat} {o : Option SpentCause} (e : retireOutcome st ramp = some o) :
    st.isHolding = true := by
  cases st with
  | spent => cases e
  | staged | armed | waiting | priming | onAir | paused | fading | faulted => rfl

/-- The rows of R112 that end in SPENT with cause RETIRED. -/
theorem retireOutcome_retired {st : EmState} {ramp : Nat}
    (c : st = .staged ∨ st = .armed ∨ st = .waiting ∨ st = .priming ∨ st = .paused ∨ (st = .onAir ∧ ramp = 0) ∨
      (st = .fading ∧ ramp = 0)) : retireOutcome st ramp = some (some .retired) := by
  obtain rfl | rfl | rfl | rfl | rfl | ⟨rfl, rfl⟩ | ⟨rfl, rfl⟩ := c <;> rfl

/-- The row of R112 for a record ON_AIR and a ramp above 0. -/
theorem retireOutcome_onAir {ramp : Nat} (above : 0 < ramp) : retireOutcome .onAir ramp = some none := by
  simp [retireOutcome, above.ne']

/-- The rows of R112 that are WRONG_STATE. -/
theorem retireOutcome_none {st : EmState} {ramp : Nat} (c : st = .spent ∨ (st = .fading ∧ 0 < ramp)) :
    retireOutcome st ramp = none := by
  obtain rfl | ⟨rfl, above⟩ := c
  · rfl
  · simp [retireOutcome, above.ne']

/-- A RETIRE of lane `l` that passes every check before the one of the record's state: it is handed over, its ramp is in range,
and it finds the record `r` of handle `h`, over which the lane has rights (R111). -/
structure State.RetireFinds (s : State) (l : Lane) (q : RetireReq) (h : EmitterHandle) (r : Record) : Prop where
  handed : s.Handed l (.retire q) anyFlag
  handle : q.emitter.emitter = some h
  ramp : q.ramp ≤ 5000
  record : s.recordAt h = some r
  lane : l = 0 ∨ l = r.lane

/-- The lane check of R9. -/
theorem laneMay_iff (acting lane : Lane) : laneMay acting lane = true ↔ acting = 0 ∨ acting = lane := by
  simp [laneMay]

section RetireFinds

variable {s : State} {l : Lane} {q : RetireReq} {h : EmitterHandle} {r : Record}

/-- The checks of a RETIRE that finds its record come down to the state of the record (R112). -/
theorem State.RetireFinds.checkRetire_eq (f : s.RetireFinds l q h r) :
    s.checkRetire l q = (want (retireOutcome r.state q.ramp) .wrongState).map (RetireFound.mk h r) := by
  have found := State.findEmitter_ok f.handle f.record ((laneMay_iff l r.lane).2 f.lane)
  have inRange : need (decide (q.ramp ≤ 5000)) .range = .ok () := need_ok (decide_eq_true f.ramp)
  unfold State.checkRetire
  rw [want_some f.handle, inRange, found]
  rfl

/-- A RETIRE that is handed over concludes with its checks and its effect. -/
theorem exec_retire_handed (handed : s.Handed l (.retire q) anyFlag) :
    exec (.retire l q) s = .next (s.conclude l (s.checkRetire l q) (s.retireEffect q.ramp)) := by
  show execRetire l q s = _
  rw [execRetire, State.onRequest_handed handed]

/-- A RETIRE whose outcome is a cause takes the record through the spent procedure. -/
theorem State.RetireFinds.exec_spent (f : s.RetireFinds l q h r) {cause : SpentCause}
    (o : retireOutcome r.state q.ramp = some (some cause)) :
    exec (.retire l q) s = .next ((s.enterSpent h cause).answer l ⟨.done, .spent cause r.playPosition⟩) := by
  rw [exec_retire_handed f.handed, State.conclude_ok (by rw [f.checkRetire_eq, want_some o]; rfl)]
  rfl

/-- A RETIRE whose outcome is FADING begins the ramp. -/
theorem State.RetireFinds.exec_fading (f : s.RetireFinds l q h r) (o : retireOutcome r.state q.ramp = some none) :
    exec (.retire l q) s = .next ((s.beginFade h q.ramp).answer l ⟨.done, .fading (s.now + q.ramp * 10000)⟩) := by
  rw [exec_retire_handed f.handed, State.conclude_ok (by rw [f.checkRetire_eq, want_some o]; rfl)]
  rfl

/-- A RETIRE without an outcome is refused, and changes nothing else. -/
theorem State.RetireFinds.exec_refused (f : s.RetireFinds l q h r) (o : retireOutcome r.state q.ramp = none) :
    exec (.retire l q) s = .next (s.answer l ⟨.wrongState, .empty⟩) := by
  rw [exec_retire_handed f.handed, State.conclude_error (by rw [f.checkRetire_eq, want_none o]; rfl)]
  rfl

/-- A RETIRE whose outcome is a cause, with what the spent procedure leaves in the table. -/
theorem State.RetireFinds.goes_spent (f : s.RetireFinds l q h r) {cause : SpentCause}
    (o : retireOutcome r.state q.ramp = some (some cause)) :
    ∃ u : State, u = s.enterSpent h cause ∧
      exec (.retire l q) s = .next (u.answer l ⟨.done, .spent cause r.playPosition⟩) ∧ s.WentSpent u h r cause ∧
      s.otherEntries u h.slot :=
  have holding := isHolding_of_retireOutcome o
  ⟨_, rfl, f.exec_spent o, State.enterSpent_wentSpent f.record holding cause,
    State.enterSpent_otherEntries f.record holding cause⟩

end RetireFinds

/-- Settles O21: RETIRE acts by the outcome of R112; the spent procedure and the move to FADING do the rest. -/
theorem retireActsByState : Obligations.RetireActsByState := by
  intro s l q h r handed handle ramp record lane
  have finds : s.RetireFinds l q h r := ⟨handed, handle, ramp, record, lane⟩
  refine ⟨fun ends => ?_, fun faulted => ?_, fun onAir above => ?_, fun refused => ?_⟩
  · exact finds.goes_spent (retireOutcome_retired ends)
  · exact finds.goes_spent (by rw [faulted]; rfl)
  · exact ⟨_, finds.exec_fading (by rw [onAir]; exact retireOutcome_onAir above), State.beginFade_recordAt record above,
      State.beginFade_otherEntries record above, State.rampEnd_mem_beginFade record above, State.beginFade_frame record above⟩
  · exact finds.exec_refused (retireOutcome_none refused)

end Sys2Proof.Machine
end

section
/-!
SUPPORT. The scene-time latch of the window (R186): what each read of scene time answers and leaves in the latch, and the latch
after the two resets.
-/

namespace Sys2Proof.Machine

/-! ## The reads of scene time (R186) -/

/-- The 4-byte read at 0x008 overwrites whatever the latch held. -/
theorem exec_sceneTimeReadLow_narrow (s : State) :
    exec (.sceneTimeReadLow false) s = .next
      { s with
        latch := some ((s.sceneTime >>> 32).setWidth 32)
        sent := s.sent ++ [.windowRead ((s.sceneTime.setWidth 32).setWidth 64)] } := rfl

/-- The 8-byte read at 0x008 does not touch the latch. -/
theorem exec_sceneTimeReadLow_wide (s : State) :
    exec (.sceneTimeReadLow true) s = .next { s with sent := s.sent ++ [.windowRead s.sceneTime] } := rfl

/-- The read at 0x00C with a value in the latch: that value is answered, not the count. -/
theorem exec_sceneTimeReadHigh_latched {s : State} {x : BitVec 32} (held : s.latch = some x) :
    exec .sceneTimeReadHigh s = .next { s with latch := none, sent := s.sent ++ [.windowRead (x.setWidth 64)] } := by
  show execSceneTimeReadHigh s = _
  simp only [execSceneTimeReadHigh, held, State.send]

/-- The read at 0x00C with the latch empty: the count as it stands is answered. -/
theorem exec_sceneTimeReadHigh_empty {s : State} (empty : s.latch = none) :
    exec .sceneTimeReadHigh s = .next { s with sent := s.sent ++ [.windowRead (s.sceneTime >>> 32)] } := by
  show execSceneTimeReadHigh s = _
  simp only [execSceneTimeReadHigh, empty, State.send]

/-! ## The latch after the resets (R186) -/

/-- Power-on takes the latch from the power-on values, whatever it held. -/
theorem exec_powerOn_empties_latch (s : State) : ∃ t : State, exec .powerOn s = .next t ∧ t.latch = none :=
  ⟨_, rfl, rfl⟩

/-- The latch is not among what a bench reset keeps. -/
theorem exec_benchReset_empties_latch (s : State) : ∃ t : State, exec .benchReset s = .next t ∧ t.latch = none :=
  ⟨_, rfl, rfl⟩

/-- Settles O10: one clause for each read, the read at 0x00C split by what the latch holds, and one for each reset. -/
theorem theLatchJoinsTheTwoReads : Obligations.TheLatchJoinsTheTwoReads := by
  refine ⟨fun s => ⟨?low, ?highLatched, ?highEmpty, ?wide, ?powerOn, ?benchReset⟩, ?reset⟩
  case low => exact exec_sceneTimeReadLow_narrow s
  case highLatched => exact fun _ held => exec_sceneTimeReadHigh_latched held
  case highEmpty => exact exec_sceneTimeReadHigh_empty
  case wide => exact exec_sceneTimeReadLow_wide s
  case powerOn => exact exec_powerOn_empties_latch s
  case benchReset => exact exec_benchReset_empties_latch s
  case reset => rfl

end Sys2Proof.Machine
end

section
/-!
SUPPORT. The stores that every step watches over: clip memory, the extents of the clips, the clip rates of the slots and the
generations. State.StoresKept s t says that t has those of s, with no rate raised and no clip added. All commands keep the stores
but the two resets, CREATE, DEFINE_FADE, DEFINE_CLIP, GRANT and COPY_HOST_READ_DONE, whose change is said here once.
-/

namespace Sys2Proof.Machine

/-! ## The stores -/

structure State.StoresKept (s t : State) : Prop where
  clipMem : t.clipMem = s.clipMem
  entryGen : ∀ i, (t.entries.get i).gen = (s.entries.get i).gen
  clipGen : ∀ i, (t.clips.get i).gen = (s.clips.get i).gen
  fadeGen : ∀ i, (t.fades.get i).gen = (s.fades.get i).gen
  rate : ∀ n, (t.slots.get n).rate ≤ (s.slots.get n).rate
  clips : ∀ i d, (t.clips.get i).clip = some d → ∃ c, (s.clips.get i).clip = some c ∧ d.SameExtent c

/-- A calm passage keeps the stores. -/
theorem State.Calm.stores {s t : State} (h : s.Calm t) : s.StoresKept t :=
  ⟨h.clipMem, h.entryGen, h.clipGen, h.fadeGen, h.rate, h.clips⟩

theorem State.StoresKept.refl (s : State) : s.StoresKept s := (State.Calm.refl s).stores

theorem State.StoresKept.trans {s t u : State} (a : s.StoresKept t) (b : t.StoresKept u) : s.StoresKept u where
  clipMem := b.clipMem.trans a.clipMem
  entryGen i := (b.entryGen i).trans (a.entryGen i)
  clipGen i := (b.clipGen i).trans (a.clipGen i)
  fadeGen i := (b.fadeGen i).trans (a.fadeGen i)
  rate n := (b.rate n).trans (a.rate n)
  clips i d e := by
    obtain ⟨c, hc, e1, e2, e3⟩ := b.clips i d e
    obtain ⟨c', hc', f1, f2, f3⟩ := a.clips i c hc
    exact ⟨c', hc', e1.trans f1, e2.trans f2, e3.trans f3⟩

/-- A fold of operations that keep the stores keeps them. -/
theorem State.StoresKept.foldl {α : Type} (f : State → α → State) (h : ∀ (s : State) a, s.StoresKept (f s a)) (xs : List α)
    (s : State) : s.StoresKept (xs.foldl f s) := by
  induction xs generalizing s with
  | nil => exact .refl s
  | cons a xs ih => exact (h s a).trans (ih (f s a))

/-- A state that has the very stores of another keeps them. -/
theorem State.StoresKept.of_eq {s t : State} (clipMem : t.clipMem = s.clipMem) (entries : t.entries = s.entries)
    (clips : t.clips = s.clips) (fades : t.fades = s.fades) (slots : t.slots = s.slots) : s.StoresKept t where
  clipMem := clipMem
  entryGen i := by rw [entries]
  clipGen i := by rw [clips]
  fadeGen i := by rw [fades]
  rate n := by rw [slots]
  clips i d e := ⟨d, by rwa [clips] at e, rfl, rfl, rfl⟩

/-- A change of nothing but the records of the table keeps the stores. -/
theorem State.StoresKept.of_entries {s t : State} (clipMem : t.clipMem = s.clipMem)
    (gens : ∀ i, (t.entries.get i).gen = (s.entries.get i).gen) (clips : t.clips = s.clips) (fades : t.fades = s.fades)
    (slots : t.slots = s.slots) : s.StoresKept t where
  clipMem := clipMem
  entryGen := gens
  clipGen i := by rw [clips]
  fadeGen i := by rw [fades]
  rate n := by rw [slots]
  clips i d e := ⟨d, by rwa [clips] at e, rfl, rfl, rfl⟩

/-! ## Requests and messages, by what they can do -/

/-- A request that is taken runs its owner's effect; any other is no event. -/
theorem State.onRequest_cases {s t : State} {l : Lane} {r : Request} {g : Header → Bool} {f : State → State}
    (e : s.onRequest l r g f = .next t) : t = s ∨ t = f s := by
  unfold State.onRequest at e
  split at e
  · split at e <;> cases e
    · exact .inr rfl
    · exact .inl rfl
  · cases e; exact .inl rfl

/-- A request with checks of its own is refused, or its effect gives the state and the answer. -/
theorem State.conclude_cases {α : Type} (s : State) (l : Lane) (checks : Checked α) (effect : α → State × Answer) :
    (∃ a, checks = .error a ∧ s.conclude l checks effect = s.answer l a) ∨
      ∃ x, checks = .ok x ∧ s.conclude l checks effect = (effect x).1.answer l (effect x).2 := by
  cases checks with
  | error a => exact .inl ⟨a, rfl, rfl⟩
  | ok x => exact .inr ⟨x, rfl, rfl⟩

/-! ## What the stores' keeping carries on -/

theorem State.StoresKept.memorySound {s t : State} (h : s.StoresKept t) (a : s.memorySound) : t.memorySound := by
  obtain ⟨wf, sound⟩ := a
  refine ⟨by rw [h.clipMem]; exact wf, fun i d e => ?_⟩
  obtain ⟨c, hc, base, count, len⟩ := h.clips i d e
  have inside := sound i c hc
  unfold Clip.sound at inside ⊢
  rwa [base, count, len]

/-- Where no slot counts more rate, the sum of the rates is no greater. -/
theorem State.rateInUse_le {s t : State} (h : ∀ n, (t.slots.get n).rate ≤ (s.slots.get n).rate) :
    t.rateInUse ≤ s.rateInUse := by
  have len : t.slots.cells.length = s.slots.cells.length := by rw [t.slots.size, s.slots.size]
  refine List.Forall₂.sum_le_sum (List.forall₂_iff_get.2 ⟨by simp [len], fun i a b => ?_⟩)
  have lt : i < 48 := by simpa [s.slots.size] using b
  simpa [Table.get] using h ⟨i, lt⟩

theorem State.StoresKept.rateSound {s t : State} (h : s.StoresKept t) (a : s.rateSound) : t.rateSound :=
  (State.rateInUse_le h.rate).trans a

theorem State.StoresKept.generationsSound {s t : State} (h : s.StoresKept t) (a : s.generationsSound) :
    t.generationsSound := by
  obtain ⟨entries, clips, fades⟩ := a
  exact ⟨fun i => by rw [h.entryGen]; exact entries i, fun i => by rw [h.clipGen]; exact clips i,
    fun i => by rw [h.fadeGen]; exact fades i⟩

/-! ## Commands that stir, and keep the stores -/

theorem stores_sceneTimeReadLow {s t : State} {b : Bool} (e : execSceneTimeReadLow b s = .next t) : s.StoresKept t := by
  unfold execSceneTimeReadLow at e
  split at e <;> cases e <;> exact .of_eq rfl rfl rfl rfl rfl

theorem stores_sceneTimeReadHigh {s t : State} (e : execSceneTimeReadHigh s = .next t) : s.StoresKept t := by
  unfold execSceneTimeReadHigh at e
  split at e <;> cases e <;> exact .of_eq rfl rfl rfl rfl rfl

theorem stores_registerWrite {s t : State} {n : Nat} {v : BitVec 64} (e : execRegisterWrite n v s = .next t) :
    s.StoresKept t := by
  unfold execRegisterWrite at e
  split at e <;> cases e <;> exact .of_eq rfl rfl rfl rfl rfl

theorem stores_handOver {s t : State} (e : execHandOver s = .next t) : s.StoresKept t := by
  unfold execHandOver at e
  split at e
  · rename_i l _
    cases e
    have moved : s.StoresKept { s with pointer := l } := .of_eq rfl rfl rfl rfl rfl
    refine moved.trans (State.Calm.stores ?_)
    unfold State.handOver
    simp only
    split
    · split
      · exact (State.Calm.refl _).setUnit rfl rfl
      · exact (State.Calm.refl _).answer
    · exact (State.Calm.refl _).answer
  · cases e; exact .refl s

theorem State.StoresKept.takePart (s : State) (p : LanePart) : s.StoresKept (s.takePart p) := by
  cases p with
  | window target w => exact .of_eq rfl rfl rfl rfl rfl
  | interval target ms => exact .of_eq rfl rfl rfl rfl rfl
  | triggers xs =>
    exact (State.Calm.foldl _ (fun u x => (State.Calm.refl u).setTriggerSetting) xs s).stores

theorem stores_setLanePart {s t : State} (e : execSetLanePart s = .next t) : s.StoresKept t := by
  unfold execSetLanePart at e
  split at e
  · cases e
    exact (State.StoresKept.takePart s _).trans (State.Calm.refl _).afterPart.stores
  all_goals cases e; exact .refl s

/-! ### Start-up -/

/-- A section of the bench profile writes settings alone: of the ports, of the triggers, or of the lanes (R189). -/
theorem State.applySection_stores {s t : State} {kind spare : Nat} {body : List Byte}
    (e : s.applySection kind spare body = some t) : s.StoresKept t := by
  unfold State.applySection at e
  split at e
  · cases e
  · split at e
    · obtain ⟨xs, -, e⟩ := Option.bind_eq_some_iff.1 e
      unfold State.portsSection at e
      simp only at e
      split at e <;> cases e
      exact .foldl State.profilePort (fun u x => .of_eq rfl rfl rfl rfl rfl) xs s
    · obtain ⟨xs, -, e⟩ := Option.map_eq_some_iff.1 e
      exact e ▸ .foldl State.profileTriggerSet (fun u x => .of_eq rfl rfl rfl rfl rfl) xs s
    · obtain ⟨xs, -, e⟩ := Option.map_eq_some_iff.1 e
      exact e ▸ .foldl State.profileLane (fun u x => .of_eq rfl rfl rfl rfl rfl) xs s
    · cases e

theorem State.takeSections_stores (n : Nat) (bytes : List Byte) (s : State) : s.StoresKept (State.takeSections n bytes s) := by
  induction n generalizing bytes s with
  | zero => exact .refl s
  | succ n ih =>
    have skipped : s.StoresKept s.skipSection := .of_eq rfl rfl rfl rfl rfl
    unfold State.takeSections
    simp only
    split
    · exact skipped
    · split
      · rename_i e
        exact (State.applySection_stores e).trans (ih _ _)
      · exact skipped.trans (ih _ _)

theorem State.profileAside_stores (s : State) : s.StoresKept s.profileAside := .of_eq rfl rfl rfl rfl rfl

theorem State.settleProfile_stores (s : State) (n : Nat) (f : FlashRead) : s.StoresKept (s.settleProfile n f) := by
  unfold State.settleProfile
  split
  · exact s.profileAside_stores
  · split
    · exact s.takeSections_stores _ _
    · exact s.profileAside_stores

theorem State.beginProbes_stores (s : State) : s.StoresKept s.beginProbes := by
  have moved : s.StoresKept { s with phase := .probing } := .of_eq rfl rfl rfl rfl rfl
  exact moved.trans (State.Calm.foldl _ (fun u p => (State.Calm.refl u).beginExchange) _ _).stores

theorem stores_profileReadDone {s t : State} {tag : Nat} {f : FlashRead} (e : execProfileReadDone tag f s = .next t) :
    s.StoresKept t := by
  have aside : s.StoresKept s.profileAside.beginProbes :=
    s.profileAside_stores.trans (State.beginProbes_stores _)
  unfold execProfileReadDone at e
  split at e
  · split at e
    · cases e
      unfold State.takeProfileHeader
      split
      · exact aside
      · split
        · exact .of_eq rfl rfl rfl rfl rfl
        · exact aside
    · cases e; exact .refl s
  · split at e
    · cases e
      exact (s.settleProfile_stores _ _).trans (State.beginProbes_stores _)
    · cases e; exact .refl s
  all_goals cases e; exact .refl s

theorem stores_profileReadTimeout {s t : State} (e : execProfileReadTimeout s = .next t) : s.StoresKept t := by
  have aside : s.StoresKept s.profileAside.beginProbes :=
    s.profileAside_stores.trans (State.beginProbes_stores _)
  unfold execProfileReadTimeout at e
  split at e
  iterate 2
    split at e <;> cases e
    · exact .refl s
    · exact aside
  all_goals cases e; exact .refl s

/-! ### The heads -/

theorem State.settlePort_stores (s : State) (f : ExchangeFor) (a : Answer) : s.StoresKept (s.settlePort f a) := by
  unfold State.settlePort
  split
  · unfold State.checkReady
    split
    · exact .of_eq rfl rfl rfl rfl rfl
    · exact .refl s
  · exact (State.Calm.refl s).completeHeld.stores
  · exact (State.Calm.refl s).settleConfigure.stores

theorem State.probeAnswered_stores (s : State) (p : Port) (x : Exchange) (id : BitVec 32) (n : Nat) :
    s.StoresKept (s.probeAnswered p x id n) := by
  unfold State.probeAnswered
  extract_lets t u
  have read : s.Calm t := .modifyPort (State.Calm.refl s).endExchange
  split
  · exact read.headFault.stores.trans (State.settlePort_stores _ _ _)
  · exact read.beginExchange.stores

theorem State.probeTimedOut_stores (s : State) (p : Port) (x : Exchange) : s.StoresKept (s.probeTimedOut p x) := by
  unfold State.probeTimedOut
  simp only
  refine State.StoresKept.trans (State.Calm.stores ?_) (State.settlePort_stores _ _ _)
  split
  · exact .raisePort (.modifyPort (State.Calm.refl s).endExchange)
  · exact .modifyPort (State.Calm.refl s).endExchange

theorem State.rateTimedOut_stores (s : State) (p : Port) (x : Exchange) : s.StoresKept (s.rateTimedOut p x) := by
  have faulted := ((State.Calm.refl s).endExchange (p := p)).headFault (p := p) (c := .noResponse) (v := 0)
  unfold State.rateTimedOut
  simp only
  split
  · exact faulted.noteSilent.stores.trans (State.settlePort_stores _ _ _)
  all_goals exact faulted.stores.trans (State.settlePort_stores _ _ _)

theorem stores_probeAnswer {s t : State} {p : Port} {tag : BitVec 8} {id : BitVec 32} {n : Nat}
    (e : execProbeAnswer p tag id n s = .next t) : s.StoresKept t := by
  unfold execProbeAnswer at e
  split at e
  · cases e; exact .refl s
  · split at e <;> cases e
    · exact s.probeAnswered_stores _ _ _ _
    · exact (State.Calm.refl s).headFault.stores

theorem stores_setRateAck {s t : State} {p : Port} {tag : BitVec 8} (e : execSetRateAck p tag s = .next t) :
    s.StoresKept t := by
  unfold execSetRateAck at e
  split at e
  · cases e; exact .refl s
  · split at e <;> cases e
    · exact (State.Calm.modifyPort (State.Calm.refl s).endExchange).stores.trans (State.settlePort_stores _ _ _)
    · exact (State.Calm.refl s).headFault.stores

theorem stores_headExchangeTimeout {s t : State} {p : Port} (e : execHeadExchangeTimeout p s = .next t) :
    s.StoresKept t := by
  unfold execHeadExchangeTimeout at e
  split at e
  · cases e; exact .refl s
  · split at e
    · split at e <;> cases e
      · exact s.probeTimedOut_stores _ _
      · exact s.rateTimedOut_stores _ _
    · cases e; exact .refl s

/-! ### Time -/

theorem State.Calm.jumpEntry {s t : State} (h : s.Calm t) {d : Int} {i : EntryNo} : s.Calm (t.jumpEntry d i) := by
  unfold State.jumpEntry
  split
  · exact h.putRecord
  · exact h

theorem State.jumpTo_stores (s : State) (time : BitVec 64) : s.StoresKept (s.jumpTo time) := by
  unfold State.jumpTo
  extract_lets d u
  have entries : s.Calm u := State.Calm.foldl _ (fun v i => (State.Calm.refl v).jumpEntry) _ _
  clear_value u
  exact entries.stores.trans (.of_eq rfl rfl rfl rfl rfl)

theorem stores_setTime {s t : State} {l : Lane} {time : BitVec 64} (e : execSetTime l time s = .next t) : s.StoresKept t := by
  obtain rfl | rfl := State.onRequest_cases e
  · exact .refl _
  obtain ⟨a, -, eq⟩ | ⟨x, -, eq⟩ := State.conclude_cases s l (s.checkSetTime l) (s.setTimeEffect time)
  · exact eq ▸ (State.Calm.refl s).answer.stores
  · exact eq ▸ (s.jumpTo_stores time).trans (State.Calm.refl _).answer.stores

theorem State.tick_stores (s : State) : s.StoresKept s.tick := by
  unfold State.tick
  simp only
  split
  · exact .of_entries rfl (fun i => by simp [State.tickFades, State.raiseDue]) rfl rfl rfl
  · exact .of_eq rfl rfl rfl rfl rfl

/-! ## Commands that change a store -/

def Instr.changesStores : Instr → Bool
  | .powerOn | .benchReset | .create _ _ _ | .defineFade _ _ | .defineClip _ _ | .grant | .copyHostReadDone _ _ => true
  | _ => false

/-- Every other command keeps the stores. -/
theorem exec_stores {c : Instr} {s t : State} (k : Instr.changesStores c = false) (e : exec c s = .next t) : s.StoresKept t := by
  by_cases stirs : Instr.stirs c = false
  · exact (exec_calm stirs e).stores
  · cases c with
    | sceneTimeReadLow b => exact stores_sceneTimeReadLow e
    | sceneTimeReadHigh => exact stores_sceneTimeReadHigh e
    | registerWrite n v => exact stores_registerWrite e
    | profileReadDone n f => exact stores_profileReadDone e
    | profileReadTimeout => exact stores_profileReadTimeout e
    | handOver => exact stores_handOver e
    | setLanePart => exact stores_setLanePart e
    | setTime l x => exact stores_setTime e
    | probeAnswer p x y z => exact stores_probeAnswer e
    | setRateAck p x => exact stores_setRateAck e
    | headExchangeTimeout p => exact stores_headExchangeTimeout e
    | powerOn | benchReset | create | defineFade | defineClip | grant | copyHostReadDone => cases k
    | _ => exact absurd rfl stirs

/-- A CREATE that makes a record takes its entry with the next generation; everything else is calm. -/
theorem create_takes {s t : State} {l : Lane} {q : CreateReq} {b : Bool} (e : execCreate l q b s = .next t) :
    s.Calm t ∨ ∃ x r, (s.takeEntry x r).Calm t := by
  obtain rfl | rfl := State.onRequest_cases e
  · exact .inl (.refl _)
  obtain ⟨a, -, eq⟩ | ⟨x, -, eq⟩ := State.conclude_cases s l (s.checkCreate l q b) (s.createEffect l q)
  · exact .inl (eq ▸ (State.Calm.refl s).answer)
  · refine .inr ⟨x, s.newRecord l q x, eq ▸ .answer ?_⟩
    unfold State.createEffect
    extract_lets g h r taken referenced joined stopped started
    have calmJoined : taken.Calm joined := .joinPorts (State.Calm.refl taken).takeReference
    have calmStopped : taken.Calm stopped := by
      cases stop : x.stop with
      | none => simpa only [stopped, stop] using calmJoined
      | some u => simpa only [stopped, stop] using calmJoined.request
    show taken.Calm started
    cases start : x.start with
    | none => simpa only [started, start] using calmStopped
    | some p => simpa only [started, start] using calmStopped.beginStart

/-- A DEFINE_FADE gives one slot its next generation, and is otherwise calm. -/
theorem defineFade_takes {s t : State} {l : Lane} {q : DefineFadeReq} (e : execDefineFade l q s = .next t) :
    s.Calm t ∨ ∃ i p, (s.setFade i ⟨takeGen (s.fades.get i).gen (s.fades.get i).unused, false, p⟩).Calm t := by
  obtain rfl | rfl := State.onRequest_cases e
  · exact .inl (.refl _)
  obtain ⟨a, -, eq⟩ | ⟨⟨c, target⟩, -, eq⟩ := State.conclude_cases s l (s.checkDefineFade l q) (s.defineFadeEffect l)
  · exact .inl (eq ▸ (State.Calm.refl s).answer)
  simp only [eq]
  cases target with
  | define i => exact .inr ⟨i, _, (State.Calm.refl _).answer⟩
  | replace f p =>
    refine .inl (State.Calm.answer ?_)
    unfold State.defineFadeEffect
    simp only
    split
    · exact (State.Calm.refl s).putFade
    · exact (State.Calm.refl s).deferFade

/-- A DEFINE_CLIP that is accepted has passed its ranges, and gives one slot its next generation and the new clip. -/
theorem defineClip_takes {s t : State} {l : Lane} {q : DefineClipReq} (e : execDefineClip l q s = .next t) :
    s.Calm t ∨ defineClipRanges q = true ∧ ∃ i,
      (s.setClip i ⟨takeGen (s.clips.get i).gen (s.clips.get i).unused, false, some (newClip l q), none⟩).Calm t := by
  obtain rfl | rfl := State.onRequest_cases e
  · exact .inl (.refl _)
  obtain ⟨a, -, eq⟩ | ⟨i, ok, eq⟩ := State.conclude_cases s l (s.checkDefineClip q) (s.defineClipEffect l q)
  · exact .inl (eq ▸ (State.Calm.refl s).answer)
  · have ranges : defineClipRanges q = true := (need_bind_ok.1 ok).1
    exact .inr ⟨ranges, i, eq ▸ (State.Calm.refl _).answer⟩

/-- What a grant needs (R70): a free slot, and a clip rate within what is left of the budget. -/
theorem State.grantable_some {s : State} {h : EmitterHandle} {n : SlotNo} (e : s.grantable = some (h, n)) :
    s.queueHead = some h ∧ (s.slots.get n).owner = none ∧ s.freeSlot = some n ∧
      ∃ r c, s.recordAt h = some r ∧ s.clipAt r.clip = some c ∧ c.rate ≤ s.rateLeft := by
  unfold State.grantable at e
  split at e
  · rename_i g m head free
    split at e
    · cases e
    · rename_i r hr
      split at e
      · cases e
      · rename_i c hc
        split at e <;> cases e
        rename_i fits
        have unowned : (s.slots.get n).owner = none := by simpa using List.find?_some free
        exact ⟨head, unowned, free, r, c, hr, hc, fits⟩
  · cases e

/-- Passing over touches records alone (R71). -/
theorem State.ageBefore_slots (s : State) (h : EmitterHandle) :
    s.ageBefore h = { s with entries := (s.ageBefore h).entries } := by
  unfold State.ageBefore
  generalize (s.grantQueue.takeWhile fun k => k != h) = ks
  induction ks generalizing s with
  | nil => rfl
  | cons k ks ih =>
    have once : s.modifyRecord k Record.passOver = { s with entries := (s.modifyRecord k Record.passOver).entries } := by
      unfold State.modifyRecord
      split <;> rfl
    rw [List.foldl_cons, ih, once]

/-- A grant gives one slot the rate of a clip that fits the budget, and is otherwise calm. -/
theorem grant_takes {s t : State} (e : execGrant s = .next t) :
    s.Calm t ∨ ∃ u n h rate start, s.Calm u ∧ u.slots = s.slots ∧ rate ≤ s.rateLeft ∧
      (u.setSlot n (.granted h rate start)).Calm t := by
  unfold execGrant at e
  split at e
  · rename_i h n g
    cases e
    obtain ⟨-, -, -, r, c, hr, hc, fits⟩ := State.grantable_some g
    refine .inr ⟨{ s.ageBefore h with grantQueue := s.grantQueue.filter fun k => k != h }, n, h, c.rate, r.startOffset, ?_, ?_,
      fits, ?_⟩
    · apply State.Calm.same ((State.Calm.refl s).ageBefore (k := h)) <;> rfl
    · show (s.ageBefore h).slots = s.slots
      rw [State.ageBefore_slots]
    · unfold State.grantTo
      rw [hr]
      simp only [hc]
      have queue : (s.ageBefore h).grantQueue = s.grantQueue := by rw [State.ageBefore_slots]
      rw [queue]
      exact .issueRun (.putRecord (.refl _))
  · cases e; exact .inl (.refl s)

/-- A host read that is taken brings whole samples, at most those still to come, and writes them from the next position of the
extent (R137). -/
theorem copyHostReadDone_writes {s t : State} {tag : Nat} {bytes : List Byte}
    (e : execCopyHostReadDone tag bytes s = .next t) :
    s.Calm t ∨ ∃ i c copied, (s.clips.get i).clip = some c ∧ 4 * copied + bytes.length ≤ 4 * c.length ∧
      ({ s with clipMem := s.clipMem.writeBytes (sampleAddr c.basePage copied) bytes } : State).Calm t := by
  unfold execCopyHostReadDone at e
  split at e
  · rename_i x c cur
    split at e
    · rename_i whole
      cases e
      unfold State.currentCopy at cur
      split at cur
      · split at cur
        · obtain ⟨d, hd, eq⟩ := Option.map_eq_some_iff.1 cur
          cases eq
          refine .inr ⟨x.load.clip.slot, c, x.copied, State.clipAt_slot hd, by omega, ?_⟩
          refine State.Calm.issueHostRead ?_
          apply State.Calm.of_eq <;> rfl
        · cases cur
      · cases cur
    · cases e; exact .inl (.refl s)
  · cases e; exact .inl (.refl s)

end Sys2Proof.Machine
end

section
/-!
SUPPORT. The invariants of the stores (R7, R36, R67, R128, R130, R131): clip memory and its clips, the rate budget, the generations.
A step is a tick, or a command of the queue's front.
-/

namespace Sys2Proof.Machine

/-- What a step can be. -/
theorem step_cases {s t : State} (e : step s = .next t) :
    t = s.tick ∨ ∃ c rest, s.pending = c :: rest ∧ exec c (s.withPending rest) = .next t := by
  unfold step at e
  split at e
  · cases e; exact .inl rfl
  · rename_i c rest q
    exact .inr ⟨c, rest, q, e⟩

/-- An invariant of the state without its queue is kept by every step when the tick keeps it and every command does. -/
theorem step_keeps {P : State → Prop} (queue : ∀ s q, P s → P (s.withPending q)) (tick : ∀ s, P s → P s.tick)
    (command : ∀ c s t, P s → exec c s = .next t → P t) (s t : State) (a : P s) (e : step s = .next t) : P t := by
  obtain rfl | ⟨c, rest, -, e⟩ := step_cases e
  · exact tick s a
  · exact command c _ t (queue s rest a) e

/-! ## Clip memory -/

/-- The clip that a DEFINE_CLIP makes lies in its extent, and the extent in the pages (R133). -/
theorem newClip_sound {l : Lane} {q : DefineClipReq} (ranges : defineClipRanges q = true) : (newClip l q).sound := by
  simp only [defineClipRanges, Bool.and_eq_true, decide_eq_true_eq] at ranges
  exact ⟨by simp only [newClip]; omega, by simp only [newClip]; omega⟩

/-- Samples of a sound clip lie in the 4 GiB of clip memory (R128). -/
theorem Clip.sound.inside {c : Clip} (a : c.sound) {copied n : Nat} (le : 4 * copied + n ≤ 4 * c.length) :
    sampleAddr c.basePage copied + n ≤ 2 ^ 32 := by
  obtain ⟨pages, len⟩ := a
  rw [sampleAddr_eq]
  simp only [Config.pageSamples] at len
  omega

theorem exec_memorySound (c : Instr) (s t : State) (a : s.memorySound) (e : exec c s = .next t) : t.memorySound := by
  by_cases k : Instr.changesStores c = false
  · exact (exec_stores k e).memorySound a
  · obtain ⟨wf, sound⟩ := a
    cases c with
    | powerOn =>
      cases e
      exact ⟨State.reset_clipMem_wf, fun i c h => by simp [State.reset, ClipSlot.initial] at h⟩
    | benchReset =>
      cases e
      exact ⟨wf, fun i c h => by simp [State.reset, ClipSlot.initial] at h⟩
    | create l q b =>
      obtain calm | ⟨x, r, calm⟩ := create_takes e
      · exact calm.stores.memorySound ⟨wf, sound⟩
      · exact calm.stores.memorySound ⟨wf, sound⟩
    | defineFade l q =>
      obtain calm | ⟨i, p, calm⟩ := defineFade_takes e
      · exact calm.stores.memorySound ⟨wf, sound⟩
      · exact calm.stores.memorySound ⟨wf, sound⟩
    | defineClip l q =>
      obtain calm | ⟨ranges, i, calm⟩ := defineClip_takes e
      · exact calm.stores.memorySound ⟨wf, sound⟩
      · refine calm.stores.memorySound ⟨wf, fun k c h => ?_⟩
        simp only [State.setClip, Table.get_set] at h
        split at h
        · cases h
          exact newClip_sound ranges
        · exact sound k c h
    | grant =>
      obtain calm | ⟨u, n, k, rate, start, before, -, -, calm⟩ := grant_takes e
      · exact calm.stores.memorySound ⟨wf, sound⟩
      · exact calm.stores.memorySound (before.stores.memorySound ⟨wf, sound⟩)
    | copyHostReadDone tag bytes =>
      obtain calm | ⟨i, c, copied, hc, fits, calm⟩ := copyHostReadDone_writes e
      · exact calm.stores.memorySound ⟨wf, sound⟩
      · exact calm.stores.memorySound ⟨Memory.wf_writeBytes wf ((sound i c hc).inside fits), sound⟩
    | _ => exact absurd rfl k

/-- Settles O56: a copy writes inside its clip, a new clip has passed its ranges, and everything else keeps the stores. -/
theorem everyStepKeepsClipMemorySound : Obligations.EveryStepKeepsClipMemorySound :=
  step_keeps (fun _ _ a => a) (fun s => s.tick_stores.memorySound) exec_memorySound

/-! ## The rate budget -/

/-- The rates of the slots, as a sum over their numbers. -/
theorem State.rateInUse_eq (s : State) : s.rateInUse = ∑ n : SlotNo, (s.slots.get n).rate := by
  have cells : s.slots.cells = List.ofFn s.slots.get := by
    refine List.ext_getElem (by simp [s.slots.size]) fun i a b => ?_
    rw [List.getElem_ofFn]
    rfl
  rw [State.rateInUse, cells, List.map_ofFn, List.sum_ofFn]
  rfl

/-- A slot that is granted adds at most the rate of its clip. -/
theorem State.rateInUse_setSlot_le (s : State) (n : SlotNo) (x : StreamSlot) :
    (s.setSlot n x).rateInUse ≤ s.rateInUse + x.rate := by
  rw [State.rateInUse_eq, State.rateInUse_eq, ← Finset.add_sum_erase _ _ (Finset.mem_univ n),
    ← Finset.add_sum_erase _ _ (Finset.mem_univ n)]
  have others : ∑ k ∈ Finset.univ.erase n, ((s.setSlot n x).slots.get k).rate =
      ∑ k ∈ Finset.univ.erase n, (s.slots.get k).rate :=
    Finset.sum_congr rfl fun k hk => by
      rw [State.setSlot, Table.get_set_ne _ _ _ _ (Finset.ne_of_mem_erase hk)]
  rw [others]
  simp only [State.setSlot, Table.get_set_self]
  omega

/-- With every slot free, no rate is in use. -/
theorem State.rateInUse_of_free {s : State} (h : s.slots = Table.fill 48 .free) : s.rateSound := by
  rw [State.rateSound, State.rateInUse_eq, h]
  simp [StreamSlot.free]

theorem exec_rateSound (c : Instr) (s t : State) (a : s.rateSound) (e : exec c s = .next t) : t.rateSound := by
  by_cases k : Instr.changesStores c = false
  · exact (exec_stores k e).rateSound a
  · cases c with
    | powerOn => cases e; exact State.rateInUse_of_free rfl
    | benchReset => cases e; exact State.rateInUse_of_free rfl
    | create l q b =>
      obtain calm | ⟨x, r, calm⟩ := create_takes e
      · exact calm.stores.rateSound a
      · exact calm.stores.rateSound a
    | defineFade l q =>
      obtain calm | ⟨i, p, calm⟩ := defineFade_takes e
      · exact calm.stores.rateSound a
      · exact calm.stores.rateSound a
    | defineClip l q =>
      obtain calm | ⟨ranges, i, calm⟩ := defineClip_takes e
      · exact calm.stores.rateSound a
      · exact calm.stores.rateSound a
    | grant =>
      obtain calm | ⟨u, n, h, rate, start, -, slots, fits, calm⟩ := grant_takes e
      · exact calm.stores.rateSound a
      · refine calm.stores.rateSound ((u.rateInUse_setSlot_le n _).trans ?_)
        have same : u.rateInUse = s.rateInUse := by rw [State.rateInUse, slots]; rfl
        unfold State.rateSound at a
        unfold State.rateLeft at fits
        rw [same]
        simp only [StreamSlot.granted]
        omega
    | copyHostReadDone tag bytes =>
      obtain calm | ⟨i, c, copied, -, -, calm⟩ := copyHostReadDone_writes e
      · exact calm.stores.rateSound a
      · exact calm.stores.rateSound a
    | _ => exact absurd rfl k

/-- Settles O57: only a grant adds a rate, and it asks that the rate fits what is left. -/
theorem everyStepKeepsTheRateBudget : Obligations.EveryStepKeepsTheRateBudget :=
  step_keeps (fun _ _ a => a) (fun s => s.tick_stores.rateSound) exec_rateSound

/-! ## The generations -/

/-- The generation after one that is not 0 is not 0: from 255 it continues at 1. -/
theorem nextGen_ne_zero {g : Generation} (h : g ≠ 0) : nextGen g ≠ 0 := by
  unfold nextGen
  split
  · decide
  · bv_omega

theorem takeGen_ne_zero {g : Generation} {b : Bool} (h : g ≠ 0) : takeGen g b ≠ 0 := by
  unfold takeGen
  split
  · exact h
  · exact nextGen_ne_zero h

/-- Every entry and slot of the initial tables has the generation 1. -/
theorem generationsSound_of_initial {s : State} (entries : s.entries = Table.fill 96 Entry.initial)
    (clips : s.clips = Table.fill 256 ClipSlot.initial) (fades : s.fades = Table.fill 16 FadeSlot.initial) :
    s.generationsSound := by
  refine ⟨fun i => ?_, fun i => ?_, fun i => ?_⟩
  · rw [entries, Table.get_fill]; decide
  · rw [clips, Table.get_fill]; decide
  · rw [fades, Table.get_fill]; decide

theorem exec_generationsSound (c : Instr) (s t : State) (a : s.generationsSound) (e : exec c s = .next t) :
    t.generationsSound := by
  by_cases k : Instr.changesStores c = false
  · exact (exec_stores k e).generationsSound a
  · obtain ⟨entries, clips, fades⟩ := a
    cases c with
    | powerOn => cases e; exact generationsSound_of_initial rfl rfl rfl
    | benchReset => cases e; exact generationsSound_of_initial rfl rfl rfl
    | create l q b =>
      obtain calm | ⟨x, r, calm⟩ := create_takes e
      · exact calm.stores.generationsSound ⟨entries, clips, fades⟩
      · refine calm.stores.generationsSound ⟨fun i => ?_, clips, fades⟩
        simp only [State.takeEntry, State.setEntry, Table.get_set]
        split
        · exact takeGen_ne_zero (entries _)
        · exact entries i
    | defineFade l q =>
      obtain calm | ⟨i, p, calm⟩ := defineFade_takes e
      · exact calm.stores.generationsSound ⟨entries, clips, fades⟩
      · refine calm.stores.generationsSound ⟨entries, clips, fun k => ?_⟩
        simp only [State.setFade, Table.get_set]
        split
        · exact takeGen_ne_zero (fades _)
        · exact fades k
    | defineClip l q =>
      obtain calm | ⟨-, i, calm⟩ := defineClip_takes e
      · exact calm.stores.generationsSound ⟨entries, clips, fades⟩
      · refine calm.stores.generationsSound ⟨entries, fun k => ?_, fades⟩
        simp only [State.setClip, Table.get_set]
        split
        · exact takeGen_ne_zero (clips _)
        · exact clips k
    | grant =>
      obtain calm | ⟨u, n, k, rate, start, before, -, -, calm⟩ := grant_takes e
      · exact calm.stores.generationsSound ⟨entries, clips, fades⟩
      · exact calm.stores.generationsSound (before.stores.generationsSound ⟨entries, clips, fades⟩)
    | copyHostReadDone tag bytes =>
      obtain calm | ⟨i, c, copied, -, -, calm⟩ := copyHostReadDone_writes e
      · exact calm.stores.generationsSound ⟨entries, clips, fades⟩
      · exact calm.stores.generationsSound ⟨entries, clips, fades⟩
    | _ => exact absurd rfl k

/-- Settles O58: a generation changes only where a record is made, to the next one, which is never 0. -/
theorem everyStepKeepsTheGenerations : Obligations.EveryStepKeepsTheGenerations :=
  step_keeps (fun _ _ a => a) (fun s => s.tick_stores.generationsSound) exec_generationsSound

end Sys2Proof.Machine
end

section
/-!
SUPPORT. What no operation but a CONFIGURE_PORT, a bench profile or a reset changes: the clock sources of the ports (R148, R160,
R189); and the walk of a SCAN or SET_LANE (R174), which only the two requests, their owners' events and an ABORT touch. One lemma
for each shared operation, for the ports as a whole where the operation leaves them alone.
-/

namespace Sys2Proof.Machine

/-! ## Setters and folds -/

/-- A port record with the old clock source leaves the clock sources. -/
@[simp] theorem Table.map_clock_set (t : Table PortRec 8) (p : Port) (r : PortRec) (same : r.clock = (t.get p).clock) :
    (t.set p r).map PortRec.clock = t.map PortRec.clock := by
  apply Table.ext_get
  intro k
  simp only [Table.get_map, Table.get_set]
  split
  · subst k; exact same
  · rfl

/-- A fold of operations that leave the ports and the walk leaves them. -/
theorem ports_foldl {α : Type} (f : State → α → State)
    (h : ∀ (s : State) a, (f s a).ports = s.ports ∧ (f s a).walk = s.walk) (xs : List α) (s : State) :
    (xs.foldl f s).ports = s.ports ∧ (xs.foldl f s).walk = s.walk := by
  induction xs generalizing s with
  | nil => exact ⟨rfl, rfl⟩
  | cons a xs ih => rw [List.foldl_cons, (ih _).1, (ih _).2]; exact h s a

/-- A fold of operations that leave the clock sources and the walk leaves them. -/
theorem clocks_foldl {α : Type} (f : State → α → State)
    (h : ∀ (s : State) a, (f s a).ports.map PortRec.clock = s.ports.map PortRec.clock ∧ (f s a).walk = s.walk)
    (xs : List α) (s : State) :
    (xs.foldl f s).ports.map PortRec.clock = s.ports.map PortRec.clock ∧ (xs.foldl f s).walk = s.walk := by
  induction xs generalizing s with
  | nil => exact ⟨rfl, rfl⟩
  | cons a xs ih => rw [List.foldl_cons, (ih _).1, (ih _).2]; exact h s a

/-! ## Port records -/

@[simp] theorem PortRec.join_clock (r : PortRec) (h : EmitterHandle) (w : Nat) : (r.join h w).clock = r.clock := by
  simp [PortRec.join]

@[simp] theorem PortRec.reweigh_clock (r : PortRec) (h : EmitterHandle) (w : Nat) : (r.reweigh h w).clock = r.clock := by
  simp [PortRec.reweigh]

@[simp] theorem PortRec.leave_clock (r : PortRec) (h : EmitterHandle) : (r.leave h).clock = r.clock := by
  simp [PortRec.leave]

@[simp] theorem PortRec.claim_clock (r : PortRec) (h : EmitterHandle) (b : Bool) (n : Nat) :
    (r.claim h b n).clock = r.clock := by
  simp [PortRec.claim]

@[simp] theorem PortRec.unclaim_clock (r : PortRec) (h : EmitterHandle) : (r.unclaim h).clock = r.clock := by
  simp [PortRec.unclaim]

@[simp] theorem PortRec.keepHandOver_clock (r : PortRec) (h : EmitterHandle) (x : List HandOver) :
    (r.keepHandOver h x).clock = r.clock := by
  simp [PortRec.keepHandOver]

@[simp] theorem PortRec.clearAttention_clock (r : PortRec) : r.clearAttention.clock = r.clock := by
  simp [PortRec.clearAttention]

@[simp] theorem PortRec.faulted_clock (r : PortRec) (c : FaultCondition) (n : Nat) (t : BitVec 64) :
    (r.faulted c n t).clock = r.clock := by
  simp [PortRec.faulted]

@[simp] theorem PortRec.dropHeld_clock (r : PortRec) (l : Lane) : (r.dropHeld l).clock = r.clock := by
  simp [PortRec.dropHeld]

@[simp] theorem PortRec.acknowledged_clock (r : PortRec) (x : Exchange) : (r.acknowledged x).clock = r.clock := by
  unfold PortRec.acknowledged
  split
  · rfl
  all_goals split <;> rfl

@[simp] theorem PortRec.changeOutput_clock (r : PortRec) : r.changeOutput.clock = r.clock := by
  unfold PortRec.changeOutput
  split <;> rfl

@[simp] theorem State.modifyPort_clocks (s : State) (p : Port) (f : PortRec → PortRec) (same : ∀ r, (f r).clock = r.clock) :
    (s.modifyPort p f).ports.map PortRec.clock = s.ports.map PortRec.clock ∧ (s.modifyPort p f).walk = s.walk := by
  simp [State.modifyPort, same]

/-! ## Operations that leave the ports -/

@[simp] theorem State.request_ports (s : State) (e : Expiry) (due : Int) :
    (s.request e due).ports = s.ports ∧ (s.request e due).walk = s.walk := by
  unfold State.request
  repeat' split
  all_goals simp

@[simp] theorem State.putRecord_ports (s : State) (i : EntryNo) (r : Record) :
    (s.putRecord i r).ports = s.ports ∧ (s.putRecord i r).walk = s.walk := by
  simp [State.putRecord]

@[simp] theorem State.modifyRecord_ports (s : State) (h : EmitterHandle) (f : Record → Record) :
    (s.modifyRecord h f).ports = s.ports ∧ (s.modifyRecord h f).walk = s.walk := by
  unfold State.modifyRecord
  repeat' split
  all_goals simp

@[simp] theorem State.putClip_ports (s : State) (i : ClipNo) (c : Clip) :
    (s.putClip i c).ports = s.ports ∧ (s.putClip i c).walk = s.walk := by
  simp [State.putClip]

@[simp] theorem State.writeCauses_ports (s : State) (l : Lane) (a b : BitVec 9) :
    (s.writeCauses l a b).ports = s.ports ∧ (s.writeCauses l a b).walk = s.walk := by
  simp [State.writeCauses_eq]

@[simp] theorem State.setCause_ports (s : State) (l : Lane) (c : Cause) :
    (s.setCause l c).ports = s.ports ∧ (s.setCause l c).walk = s.walk := by
  simp [State.setCause]

@[simp] theorem State.raiseEmitter_ports (s : State) (h : EmitterHandle) (f : EmCauses → EmCauses) :
    (s.raiseEmitter h f).ports = s.ports ∧ (s.raiseEmitter h f).walk = s.walk := by
  unfold State.raiseEmitter
  repeat' split
  all_goals simp

@[simp] theorem State.raiseReadError_ports (s : State) (c : ClipHandle) :
    (s.raiseReadError c).ports = s.ports ∧ (s.raiseReadError c).walk = s.walk := by
  unfold State.raiseReadError
  repeat' split
  all_goals simp

@[simp] theorem State.takeReference_ports (s : State) (c : ClipHandle) :
    (s.takeReference c).ports = s.ports ∧ (s.takeReference c).walk = s.walk := by
  unfold State.takeReference
  repeat' split
  all_goals simp

@[simp] theorem State.drainClip_ports (s : State) (c : ClipHandle) (x : Clip) :
    (s.drainClip c x).ports = s.ports ∧ (s.drainClip c x).walk = s.walk := by
  unfold State.drainClip
  simp

@[simp] theorem State.releaseReference_ports (s : State) (c : ClipHandle) :
    (s.releaseReference c).ports = s.ports ∧ (s.releaseReference c).walk = s.walk := by
  unfold State.releaseReference
  repeat' split
  all_goals simp

@[simp] theorem State.leaveWaiting_ports (s : State) (h : EmitterHandle) :
    (s.leaveWaiting h).ports = s.ports ∧ (s.leaveWaiting h).walk = s.walk := by
  simp [State.leaveWaiting]

@[simp] theorem State.releaseSlot_ports (s : State) (h : EmitterHandle) :
    (s.releaseSlot h).ports = s.ports ∧ (s.releaseSlot h).walk = s.walk := by
  unfold State.releaseSlot
  repeat' split
  all_goals simp

@[simp] theorem State.leaveApplyPlace_ports (s : State) (h : EmitterHandle) (c : Change) :
    (s.leaveApplyPlace h c).ports = s.ports ∧ (s.leaveApplyPlace h c).walk = s.walk := by
  unfold State.leaveApplyPlace
  repeat' split
  all_goals simp

@[simp] theorem State.freeEntry_ports (s : State) (h : EmitterHandle) :
    (s.freeEntry h).ports = s.ports ∧ (s.freeEntry h).walk = s.walk := by
  simp [State.freeEntry]

@[simp] theorem State.beginSpentInterval_ports (s : State) (h : EmitterHandle) (l : Lane) :
    (s.beginSpentInterval h l).ports = s.ports ∧ (s.beginSpentInterval h l).walk = s.walk := by
  unfold State.beginSpentInterval
  simp only
  repeat' split
  all_goals simp

@[simp] theorem State.issueRun_ports (s : State) (n : SlotNo) :
    (s.issueRun n).ports = s.ports ∧ (s.issueRun n).walk = s.walk := by
  unfold State.issueRun
  simp only
  repeat' split
  all_goals simp

@[simp] theorem State.issueDemand_ports (s : State) (n : SlotNo) :
    (s.issueDemand n).ports = s.ports ∧ (s.issueDemand n).walk = s.walk := by
  unfold State.issueDemand
  simp only
  repeat' split
  all_goals simp

@[simp] theorem State.checkPrimed_ports (s : State) (n : SlotNo) :
    (s.checkPrimed n).ports = s.ports ∧ (s.checkPrimed n).walk = s.walk := by
  unfold State.checkPrimed
  simp only
  repeat' split
  all_goals simp

@[simp] theorem State.appendRun_ports (s : State) (n : SlotNo) (r : Record) (c : Clip) (run : Run) :
    (s.appendRun n r c run).ports = s.ports ∧ (s.appendRun n r c run).walk = s.walk := by
  simp [State.appendRun]

@[simp] theorem State.ageBefore_ports (s : State) (h : EmitterHandle) :
    (s.ageBefore h).ports = s.ports ∧ (s.ageBefore h).walk = s.walk := by
  rw [State.ageBefore_slots]
  simp

@[simp] theorem State.grantTo_ports (s : State) (h : EmitterHandle) (n : SlotNo) :
    (s.grantTo h n).ports = s.ports ∧ (s.grantTo h n).walk = s.walk := by
  unfold State.grantTo
  repeat' split
  all_goals simp

@[simp] theorem State.countStray_ports (s : State) (tag : Nat) (d : Bool) (o : ReadOutcome) :
    (s.countStray tag d o).ports = s.ports ∧ (s.countStray tag d o).walk = s.walk := by
  unfold State.countStray
  repeat' split
  all_goals simp

@[simp] theorem State.stall_ports (s : State) (n : SlotNo) (r : Record) (run : Run) :
    (s.stall n r run).ports = s.ports ∧ (s.stall n r run).walk = s.walk := by
  unfold State.stall
  repeat' split
  all_goals simp

@[simp] theorem State.disregardRead_ports (s : State) (n : SlotNo) :
    (s.disregardRead n).ports = s.ports ∧ (s.disregardRead n).walk = s.walk := by
  simp [State.disregardRead]

@[simp] theorem State.goOnAir_ports (s : State) (h : EmitterHandle) :
    (s.goOnAir h).ports = s.ports ∧ (s.goOnAir h).walk = s.walk := by
  unfold State.goOnAir
  simp only
  repeat' split
  all_goals simp

@[simp] theorem State.takePrimed_ports (s : State) (h : EmitterHandle) :
    (s.takePrimed h).ports = s.ports ∧ (s.takePrimed h).walk = s.walk := by
  unfold State.takePrimed
  repeat' split
  all_goals simp

@[simp] theorem State.takeRecovered_ports (s : State) (h : EmitterHandle) :
    (s.takeRecovered h).ports = s.ports ∧ (s.takeRecovered h).walk = s.walk := by
  unfold State.takeRecovered
  repeat' split
  all_goals simp

@[simp] theorem State.issueWrite_ports (s : State) (l : Lane) (a : Answer) (n : Nat) (b : Bool) :
    (s.issueWrite l a n b).ports = s.ports ∧ (s.issueWrite l a n b).walk = s.walk := by
  simp [State.issueWrite]

@[simp] theorem State.endWrite_ports (s : State) (w : HostWrite) (n : Nat) :
    (s.endWrite w n).ports = s.ports ∧ (s.endWrite w n).walk = s.walk := by
  simp [State.endWrite]

@[simp] theorem State.beginWrite_ports (s : State) (l : Lane) (a : Answer) (n : Nat) (b : Bool) :
    (s.beginWrite l a n b).ports = s.ports ∧ (s.beginWrite l a n b).walk = s.walk := by
  simp [State.beginWrite]

@[simp] theorem State.answer_ports (s : State) (l : Lane) (a : Answer) :
    (s.answer l a).ports = s.ports ∧ (s.answer l a).walk = s.walk := by
  simp [State.answer]

@[simp] theorem State.hold_ports (s : State) (l : Lane) :
    (s.hold l).ports = s.ports ∧ (s.hold l).walk = s.walk := by
  simp [State.hold]

@[simp] theorem State.joinArmSet_ports (s : State) (h : EmitterHandle) :
    (s.joinArmSet h).ports = s.ports ∧ (s.joinArmSet h).walk = s.walk := by
  simp [State.joinArmSet]

@[simp] theorem State.becomeWaiting_ports (s : State) (h : EmitterHandle) (x : Int) :
    (s.becomeWaiting h x).ports = s.ports ∧ (s.becomeWaiting h x).walk = s.walk := by
  simp [State.becomeWaiting]

@[simp] theorem State.leadRecord_ports (s : State) (h : EmitterHandle) (x : BitVec 64) :
    (s.leadRecord h x).ports = s.ports ∧ (s.leadRecord h x).walk = s.walk := by
  unfold State.leadRecord
  repeat' split
  all_goals simp

@[simp] theorem State.takeLead_ports (s : State) (x : BitVec 64) :
    (s.takeLead x).ports = s.ports ∧ (s.takeLead x).walk = s.walk := by
  exact ports_foldl _ (fun u h => by simp) _ s

@[simp] theorem State.beginStart_ports (s : State) (h : EmitterHandle) (p : StartPoint) :
    (s.beginStart h p).ports = s.ports ∧ (s.beginStart h p).walk = s.walk := by
  unfold State.beginStart
  simp only
  repeat' split
  all_goals simp

@[simp] theorem State.refill_ports (s : State) (h : EmitterHandle) :
    (s.refill h).ports = s.ports ∧ (s.refill h).walk = s.walk := by
  unfold State.refill
  repeat' split
  all_goals simp

@[simp] theorem State.resendEnd_ports (s : State) (h : EmitterHandle) :
    (s.resendEnd h).ports = s.ports ∧ (s.resendEnd h).walk = s.walk := by
  unfold State.resendEnd
  repeat' split
  all_goals simp

@[simp] theorem State.changeStop_ports (s : State) (h : EmitterHandle) (c : FieldChange (BitVec 64)) :
    (s.changeStop h c).ports = s.ports ∧ (s.changeStop h c).walk = s.walk := by
  unfold State.changeStop
  repeat' split
  all_goals simp

@[simp] theorem State.handSlot_ports (s : State) (h : EmitterHandle) (b : Bool) :
    (s.handSlot h b).ports = s.ports ∧ (s.handSlot h b).walk = s.walk := by
  unfold State.handSlot
  repeat' split
  all_goals simp

@[simp] theorem State.placeChange_ports (s : State) (h : EmitterHandle) (n : Nat) (a : ApplyPoint) :
    (s.placeChange h n a).ports = s.ports ∧ (s.placeChange h n a).walk = s.walk := by
  unfold State.placeChange
  repeat' split
  all_goals simp

@[simp] theorem State.takeSpentExpiry_ports (s : State) (h : EmitterHandle) :
    (s.takeSpentExpiry h).ports = s.ports ∧ (s.takeSpentExpiry h).walk = s.walk := by
  unfold State.takeSpentExpiry
  repeat' split
  all_goals simp

@[simp] theorem State.putFade_ports (s : State) (i : FadeNo) (p : Option FadeProfile) :
    (s.putFade i p).ports = s.ports ∧ (s.putFade i p).walk = s.walk := by
  simp [State.putFade]

@[simp] theorem State.deferFade_ports (s : State) (f : FadeHandle) (p : FadeProfile) (c : FadeCurve) :
    (s.deferFade f p c).ports = s.ports ∧ (s.deferFade f p c).walk = s.walk := by
  unfold State.deferFade
  repeat' split
  all_goals simp

@[simp] theorem State.takeReplacement_ports (s : State) (f : FadeHandle) :
    (s.takeReplacement f).ports = s.ports ∧ (s.takeReplacement f).walk = s.walk := by
  unfold State.takeReplacement
  repeat' split
  all_goals simp

@[simp] theorem State.takeStartTime_ports (s : State) (h : EmitterHandle) :
    (s.takeStartTime h).ports = s.ports ∧ (s.takeStartTime h).walk = s.walk := by
  unfold State.takeStartTime
  repeat' split
  all_goals simp

@[simp] theorem State.settle_ports (s : State) (x : Trigger) (y : Int) :
    (s.settle x y).ports = s.ports ∧ (s.settle x y).walk = s.walk := by
  unfold State.settle
  simp only
  repeat' split
  all_goals simp

@[simp] theorem State.qualify_ports (s : State) (x : Trigger) :
    (s.qualify x).ports = s.ports ∧ (s.qualify x).walk = s.walk := by
  unfold State.qualify
  repeat' split
  all_goals simp

@[simp] theorem State.qualifyNow_ports (s : State) (x : Trigger) :
    (s.qualifyNow x).ports = s.ports ∧ (s.qualifyNow x).walk = s.walk := by
  unfold State.qualifyNow
  repeat' split
  all_goals simp

@[simp] theorem State.setTriggerSetting_ports (s : State) (x : TriggerSetting) :
    (s.setTriggerSetting x).ports = s.ports ∧ (s.setTriggerSetting x).walk = s.walk := by
  simp [State.setTriggerSetting]

@[simp] theorem State.releaseArmed_ports (s : State) (h : EmitterHandle) (y : Int) :
    (s.releaseArmed h y).ports = s.ports ∧ (s.releaseArmed h y).walk = s.walk := by
  unfold State.releaseArmed
  repeat' split
  all_goals simp

@[simp] theorem State.unclaimed_ports (s : State) (x : Trigger) (y : Int) :
    (s.unclaimed x y).ports = s.ports ∧ (s.unclaimed x y).walk = s.walk := by
  unfold State.unclaimed
  simp

@[simp] theorem State.takeCrossing_ports (s : State) (h : EmitterHandle) (q : CueLine) (y : Int) :
    (s.takeCrossing h q y).ports = s.ports ∧ (s.takeCrossing h q y).walk = s.walk := by
  unfold State.takeCrossing
  repeat' split
  all_goals simp

@[simp] theorem State.issueHostRead_ports (s : State) :
    s.issueHostRead.ports = s.ports ∧ s.issueHostRead.walk = s.walk := by
  rw [State.issueHostRead_eq]
  simp

@[simp] theorem State.dispatchLoad_ports (s : State) :
    s.dispatchLoad.ports = s.ports ∧ s.dispatchLoad.walk = s.walk := by
  rw [State.dispatchLoad_frame]
  simp

@[simp] theorem State.leaveLoading_ports (s : State) (c : ClipHandle) (a : ClipState) (b : Option (BitVec 32)) :
    (s.leaveLoading c a b).ports = s.ports ∧ (s.leaveLoading c a b).walk = s.walk := by
  unfold State.leaveLoading
  repeat' split
  all_goals simp

@[simp] theorem State.dropLoad_ports (s : State) (f : Load → Bool) :
    (s.dropLoad f).ports = s.ports ∧ (s.dropLoad f).walk = s.walk := by
  simp [State.dropLoad]

@[simp] theorem State.abortLoad_ports (s : State) (l : Lane) :
    (s.abortLoad l).ports = s.ports ∧ (s.abortLoad l).walk = s.walk := by
  unfold State.abortLoad
  repeat' split
  all_goals simp

@[simp] theorem State.completeHeld_ports (s : State) (l : Lane) (a : Answer) (n : Nat) :
    (s.completeHeld l a n).ports = s.ports ∧ (s.completeHeld l a n).walk = s.walk := by
  simp [State.completeHeld]

@[simp] theorem State.endCopy_ports (s : State) (x : Copy) (c : Clip) (b : Bool) :
    (s.endCopy x c b).ports = s.ports ∧ (s.endCopy x c b).walk = s.walk := by
  unfold State.endCopy
  repeat' split
  all_goals simp

@[simp] theorem State.emptyClip_ports (s : State) (c : ClipHandle) :
    (s.emptyClip c).ports = s.ports ∧ (s.emptyClip c).walk = s.walk := by
  simp [State.emptyClip]

@[simp] theorem State.abandonLoadOf_ports (s : State) (c : ClipHandle) :
    (s.abandonLoadOf c).ports = s.ports ∧ (s.abandonLoadOf c).walk = s.walk := by
  unfold State.abandonLoadOf
  repeat' split
  all_goals simp

@[simp] theorem State.copyBytes_ports (s : State) (x : Copy) (c : Clip) (bs : List Byte) :
    (s.copyBytes x c bs).ports = s.ports ∧ (s.copyBytes x c bs).walk = s.walk := by
  simp [State.copyBytes]

@[simp] theorem State.countRead_ports (s : State) (c : ClipHandle) (o : ReadOutcome) :
    (s.countRead c o).ports = s.ports ∧ (s.countRead c o).walk = s.walk := by
  unfold State.countRead
  repeat' split
  all_goals simp

@[simp] theorem State.moveUnit_ports (s : State) (l : Lane) (x : UnitState) :
    (s.moveUnit l x).ports = s.ports ∧ (s.moveUnit l x).walk = s.walk := by
  simp [State.moveUnit]

@[simp] theorem State.faultUnit_ports (s : State) (l : Lane) (d : UnitFault) :
    (s.faultUnit l d).ports = s.ports ∧ (s.faultUnit l d).walk = s.walk := by
  simp [State.faultUnit]

@[simp] theorem State.beginRead_ports (s : State) (l : Lane) (p : Phase) (b : Option Block) :
    (s.beginRead l p b).ports = s.ports ∧ (s.beginRead l p b).walk = s.walk := by
  simp [State.beginRead]

@[simp] theorem State.beginFetch_ports (s : State) (l : Lane) (a : BitVec 64) :
    (s.beginFetch l a).ports = s.ports ∧ (s.beginFetch l a).walk = s.walk := by
  unfold State.beginFetch
  simp only
  repeat' split
  all_goals simp

@[simp] theorem State.takeHeader_ports (s : State) (l : Lane) (x : Header) :
    (s.takeHeader l x).ports = s.ports ∧ (s.takeHeader l x).walk = s.walk := by
  unfold State.takeHeader
  simp only
  repeat' split
  all_goals simp

@[simp] theorem State.takeArea_ports (s : State) (l : Lane) (x : Option Request) :
    (s.takeArea l x).ports = s.ports ∧ (s.takeArea l x).walk = s.walk := by
  simp [State.takeArea]

@[simp] theorem State.takeLink_ports (s : State) (l : Lane) (x : Option (BitVec 64)) :
    (s.takeLink l x).ports = s.ports ∧ (s.takeLink l x).walk = s.walk := by
  unfold State.takeLink
  repeat' split
  all_goals simp

@[simp] theorem State.takeHeldDone_ports (s : State) (l : Lane) (a : Answer) :
    (s.takeHeldDone l a).ports = s.ports ∧ (s.takeHeldDone l a).walk = s.walk := by
  unfold State.takeHeldDone
  repeat' split
  all_goals simp

@[simp] theorem State.actOnFlags_ports (s : State) (l : Lane) (x : Header) :
    (s.actOnFlags l x).ports = s.ports ∧ (s.actOnFlags l x).walk = s.walk := by
  unfold State.actOnFlags
  repeat' split
  all_goals simp

@[simp] theorem State.beginResume_ports (s : State) (l : Lane) :
    (s.beginResume l).ports = s.ports ∧ (s.beginResume l).walk = s.walk := by
  unfold State.beginResume
  simp only
  repeat' split
  all_goals simp

@[simp] theorem State.writeAborted_ports (s : State) (l : Lane) :
    (s.writeAborted l).ports = s.ports ∧ (s.writeAborted l).walk = s.walk := by
  simp [State.writeAborted]

@[simp] theorem State.clearSummaries_ports (s : State) :
    s.clearSummaries.ports = s.ports ∧ s.clearSummaries.walk = s.walk := by
  simp [State.clearSummaries]

@[simp] theorem State.handOver_ports (s : State) (l : Lane) :
    (s.handOver l).ports = s.ports ∧ (s.handOver l).walk = s.walk := by
  unfold State.handOver
  simp only
  repeat' split
  all_goals simp

@[simp] theorem State.jumpEntry_ports (s : State) (d : Int) (i : EntryNo) :
    (s.jumpEntry d i).ports = s.ports ∧ (s.jumpEntry d i).walk = s.walk := by
  unfold State.jumpEntry
  repeat' split
  all_goals simp

/-! ## Operations that leave the clock sources -/

@[simp] theorem State.endExchange_clocks (s : State) (p : Port) :
    (s.endExchange p).ports.map PortRec.clock = s.ports.map PortRec.clock ∧ (s.endExchange p).walk = s.walk := by
  unfold State.endExchange
  simp

@[simp] theorem State.beginExchange_clocks (s : State) (p : Port) (a : ExchangeKind) (b : ExchangeFor) (c : Bool) :
    (s.beginExchange p a b c).ports.map PortRec.clock = s.ports.map PortRec.clock ∧ (s.beginExchange p a b c).walk = s.walk := by
  unfold State.beginExchange
  repeat' split
  all_goals simp

@[simp] theorem State.raisePort_clocks (s : State) (p : Port) (f : PortCauses → PortCauses) :
    (s.raisePort p f).ports.map PortRec.clock = s.ports.map PortRec.clock ∧ (s.raisePort p f).walk = s.walk := by
  unfold State.raisePort
  simp

@[simp] theorem State.headFault_clocks (s : State) (p : Port) (c : FaultCondition) (v : Nat) :
    (s.headFault p c v).ports.map PortRec.clock = s.ports.map PortRec.clock ∧ (s.headFault p c v).walk = s.walk := by
  unfold State.headFault
  simp only
  repeat' split
  all_goals simp

@[simp] theorem State.becomeReady_clocks (s : State) :
    s.becomeReady.ports.map PortRec.clock = s.ports.map PortRec.clock ∧ s.becomeReady.walk = s.walk := by
  unfold State.becomeReady
  simp

@[simp] theorem State.settleConfigure_clocks (s : State) (p : Port) :
    (s.settleConfigure p).ports.map PortRec.clock = s.ports.map PortRec.clock ∧ (s.settleConfigure p).walk = s.walk := by
  unfold State.settleConfigure
  repeat' split
  all_goals simp

@[simp] theorem State.noteSilent_clocks (s : State) (p q : Port) :
    (s.noteSilent p q).ports.map PortRec.clock = s.ports.map PortRec.clock ∧ (s.noteSilent p q).walk = s.walk := by
  unfold State.noteSilent
  simp

@[simp] theorem State.checkReady_clocks (s : State) :
    s.checkReady.ports.map PortRec.clock = s.ports.map PortRec.clock ∧ s.checkReady.walk = s.walk := by
  unfold State.checkReady
  repeat' split
  all_goals simp

@[simp] theorem State.settlePort_clocks (s : State) (f : ExchangeFor) (a : Answer) :
    (s.settlePort f a).ports.map PortRec.clock = s.ports.map PortRec.clock ∧ (s.settlePort f a).walk = s.walk := by
  unfold State.settlePort
  repeat' split
  all_goals simp

@[simp] theorem State.probeAnswered_clocks (s : State) (p : Port) (x : Exchange) (i : BitVec 32) (n : Nat) :
    (s.probeAnswered p x i n).ports.map PortRec.clock = s.ports.map PortRec.clock ∧ (s.probeAnswered p x i n).walk = s.walk := by
  unfold State.probeAnswered
  simp only
  repeat' split
  all_goals simp

@[simp] theorem State.rateAcknowledged_clocks (s : State) (p : Port) (x : Exchange) :
    (s.rateAcknowledged p x).ports.map PortRec.clock = s.ports.map PortRec.clock ∧ (s.rateAcknowledged p x).walk = s.walk := by
  unfold State.rateAcknowledged
  simp only
  repeat' split
  all_goals simp

@[simp] theorem State.probeTimedOut_clocks (s : State) (p : Port) (x : Exchange) :
    (s.probeTimedOut p x).ports.map PortRec.clock = s.ports.map PortRec.clock ∧ (s.probeTimedOut p x).walk = s.walk := by
  unfold State.probeTimedOut
  simp only
  repeat' split
  all_goals simp

@[simp] theorem State.rateTimedOut_clocks (s : State) (p : Port) (x : Exchange) :
    (s.rateTimedOut p x).ports.map PortRec.clock = s.ports.map PortRec.clock ∧ (s.rateTimedOut p x).walk = s.walk := by
  unfold State.rateTimedOut
  repeat' split
  all_goals simp

@[simp] theorem State.abortPorts_clocks (s : State) (l : Lane) :
    (s.abortPorts l).ports.map PortRec.clock = s.ports.map PortRec.clock ∧ (s.abortPorts l).walk = s.walk := by
  refine ⟨Table.ext_get _ _ fun p => ?_, rfl⟩
  simp [State.abortPorts]

@[simp] theorem State.endHeld_clocks (s : State) (l : Lane) :
    (s.endHeld l).ports.map PortRec.clock = s.ports.map PortRec.clock ∧ (s.endHeld l).walk = s.walk := by
  unfold State.endHeld
  simp

@[simp] theorem State.joinPorts_clocks (s : State) (ps : List Port) (h : EmitterHandle) (w : Nat) :
    (s.joinPorts ps h w).ports.map PortRec.clock = s.ports.map PortRec.clock ∧ (s.joinPorts ps h w).walk = s.walk := by
  exact clocks_foldl _ (fun u x => by simp [State.joinPort]) _ s

@[simp] theorem State.leavePorts_clocks (s : State) (ps : List Port) (h : EmitterHandle) :
    (s.leavePorts ps h).ports.map PortRec.clock = s.ports.map PortRec.clock ∧ (s.leavePorts ps h).walk = s.walk := by
  exact clocks_foldl _ (fun u x => by simp [State.leavePort]) _ s

@[simp] theorem State.releaseReservations_clocks (s : State) (h : EmitterHandle) (c : Change) :
    (s.releaseReservations h c).ports.map PortRec.clock = s.ports.map PortRec.clock ∧ (s.releaseReservations h c).walk = s.walk := by
  exact clocks_foldl _ (fun u x => by simp [State.releasePort]) _ s

@[simp] theorem State.claimPorts_clocks (s : State) (h : EmitterHandle) (cs : List PortReservation) :
    (s.claimPorts h cs).ports.map PortRec.clock = s.ports.map PortRec.clock ∧ (s.claimPorts h cs).walk = s.walk := by
  exact clocks_foldl _ (fun u x => by simp [State.claimPort]) _ s

@[simp] theorem State.changePorts_clocks (s : State) (h : EmitterHandle) (a b : BitVec 8) (w : Nat) :
    (s.changePorts h a b w).ports.map PortRec.clock = s.ports.map PortRec.clock ∧ (s.changePorts h a b w).walk = s.walk := by
  exact clocks_foldl _ (fun u x => by split <;> simp [State.joinPort, State.weighPort, State.leavePort]) _ s

@[simp] theorem State.withdrawChange_clocks (s : State) (h : EmitterHandle) :
    (s.withdrawChange h).ports.map PortRec.clock = s.ports.map PortRec.clock ∧ (s.withdrawChange h).walk = s.walk := by
  unfold State.withdrawChange
  repeat' split
  all_goals simp

@[simp] theorem State.releaseHoldings_clocks (s : State) (h : EmitterHandle) :
    (s.releaseHoldings h).ports.map PortRec.clock = s.ports.map PortRec.clock ∧ (s.releaseHoldings h).walk = s.walk := by
  unfold State.releaseHoldings
  repeat' split
  all_goals simp

@[simp] theorem State.enterSpent_clocks (s : State) (h : EmitterHandle) (c : SpentCause) :
    (s.enterSpent h c).ports.map PortRec.clock = s.ports.map PortRec.clock ∧ (s.enterSpent h c).walk = s.walk := by
  unfold State.enterSpent
  repeat' split
  all_goals simp

@[simp] theorem State.flushEntry_clocks (s : State) (h : EmitterHandle) :
    (s.flushEntry h).ports.map PortRec.clock = s.ports.map PortRec.clock ∧ (s.flushEntry h).walk = s.walk := by
  unfold State.flushEntry
  simp

@[simp] theorem State.flushWhere_clocks (s : State) (sel : Record → Bool) :
    (s.flushWhere sel).ports.map PortRec.clock = s.ports.map PortRec.clock ∧ (s.flushWhere sel).walk = s.walk := by
  refine clocks_foldl _ (fun u i => ?_) _ s
  repeat' split
  all_goals simp

@[simp] theorem State.playSample_clocks (s : State) (n : SlotNo) (h : EmitterHandle) (r : Record) (rate : Nat) (y : Sample) :
    (s.playSample n h r rate y).ports.map PortRec.clock = s.ports.map PortRec.clock ∧ (s.playSample n h r rate y).walk = s.walk := by
  unfold State.playSample
  simp [clocks_foldl (fun (u : State) p => u.modifyPort p fun a => a.keepHandOver h _) (fun u p => by simp)]

@[simp] theorem State.playClip_clocks (s : State) (n : SlotNo) (h : EmitterHandle) (r : Record) (c : Clip) (w : WindowSample) (ws : List WindowSample) :
    (s.playClip n h r c w ws).ports.map PortRec.clock = s.ports.map PortRec.clock ∧ (s.playClip n h r c w ws).walk = s.walk := by
  unfold State.playClip
  repeat' split
  all_goals simp

@[simp] theorem State.playTail_clocks (s : State) (n : SlotNo) (h : EmitterHandle) (r : Record) (c : Clip) (tail : Nat) :
    (s.playTail n h r c tail).ports.map PortRec.clock = s.ports.map PortRec.clock ∧ (s.playTail n h r c tail).walk = s.walk := by
  unfold State.playTail
  simp only
  repeat' split
  all_goals simp

@[simp] theorem State.playGap_clocks (s : State) (n : SlotNo) (h : EmitterHandle) (r : Record) (c : Clip) :
    (s.playGap n h r c).ports.map PortRec.clock = s.ports.map PortRec.clock ∧ (s.playGap n h r c).walk = s.walk := by
  unfold State.playGap
  repeat' split
  all_goals simp

@[simp] theorem State.takeEndOfClip_clocks (s : State) (h : EmitterHandle) :
    (s.takeEndOfClip h).ports.map PortRec.clock = s.ports.map PortRec.clock ∧ (s.takeEndOfClip h).walk = s.walk := by
  unfold State.takeEndOfClip
  repeat' split
  all_goals simp

@[simp] theorem State.takeFailure_clocks (s : State) (h : EmitterHandle) :
    (s.takeFailure h).ports.map PortRec.clock = s.ports.map PortRec.clock ∧ (s.takeFailure h).walk = s.walk := by
  unfold State.takeFailure
  repeat' split
  all_goals simp

@[simp] theorem State.applyValues_clocks (s : State) (h : EmitterHandle) (v : NewValues) :
    (s.applyValues h v).ports.map PortRec.clock = s.ports.map PortRec.clock ∧ (s.applyValues h v).walk = s.walk := by
  unfold State.applyValues
  repeat' split
  all_goals simp

@[simp] theorem State.applyStaged_clocks (s : State) (h : EmitterHandle) :
    (s.applyStaged h).ports.map PortRec.clock = s.ports.map PortRec.clock ∧ (s.applyStaged h).walk = s.walk := by
  unfold State.applyStaged
  repeat' split
  all_goals simp

@[simp] theorem State.supersede_clocks (s : State) (h : EmitterHandle) :
    (s.supersede h).ports.map PortRec.clock = s.ports.map PortRec.clock ∧ (s.supersede h).walk = s.walk := by
  unfold State.supersede
  repeat' split
  all_goals simp

@[simp] theorem State.stageChange_clocks (s : State) (h : EmitterHandle) (c : Change) :
    (s.stageChange h c).ports.map PortRec.clock = s.ports.map PortRec.clock ∧ (s.stageChange h c).walk = s.walk := by
  unfold State.stageChange
  simp

@[simp] theorem State.takeApply_clocks (s : State) (h : EmitterHandle) (n : Nat) (f : ApplyPoint → Bool) :
    (s.takeApply h n f).ports.map PortRec.clock = s.ports.map PortRec.clock ∧ (s.takeApply h n f).walk = s.walk := by
  unfold State.takeApply
  repeat' split
  all_goals simp

@[simp] theorem State.beginFade_clocks (s : State) (h : EmitterHandle) (n : Nat) :
    (s.beginFade h n).ports.map PortRec.clock = s.ports.map PortRec.clock ∧ (s.beginFade h n).walk = s.walk := by
  unfold State.beginFade
  simp

@[simp] theorem State.takeRampEnd_clocks (s : State) (h : EmitterHandle) :
    (s.takeRampEnd h).ports.map PortRec.clock = s.ports.map PortRec.clock ∧ (s.takeRampEnd h).walk = s.walk := by
  unfold State.takeRampEnd
  repeat' split
  all_goals simp

@[simp] theorem State.takeStopPoint_clocks (s : State) (h : EmitterHandle) (x : BitVec 64) :
    (s.takeStopPoint h x).ports.map PortRec.clock = s.ports.map PortRec.clock ∧ (s.takeStopPoint h x).walk = s.walk := by
  unfold State.takeStopPoint
  repeat' split
  all_goals simp

@[simp] theorem State.edgeWork_clocks (s : State) (x : Trigger) (y : Int) :
    (s.edgeWork x y).ports.map PortRec.clock = s.ports.map PortRec.clock ∧ (s.edgeWork x y).walk = s.walk := by
  unfold State.edgeWork
  simp [clocks_foldl (fun (u : State) k => u.applyStaged k) (fun u k => by simp),
    ports_foldl (fun (u : State) k => u.releaseArmed k y) (fun u k => by simp)]

@[simp] theorem State.takeEdge_clocks (s : State) (x : Trigger) (y : Int) :
    (s.takeEdge x y).ports.map PortRec.clock = s.ports.map PortRec.clock ∧ (s.takeEdge x y).walk = s.walk := by
  unfold State.takeEdge
  simp only
  repeat' split
  all_goals simp

@[simp] theorem State.clearScanned_clocks (s : State) (e : ScanEntry) :
    (s.clearScanned e).ports.map PortRec.clock = s.ports.map PortRec.clock ∧ (s.clearScanned e).walk = s.walk := by
  unfold State.clearScanned
  repeat' split
  all_goals simp

end Sys2Proof.Machine
end

section
/-!
SUPPORT. The commands that keep the clock sources of the ports, and the walk or drop it; and with them the two invariants of R148 and
of R177 with R183.
-/

namespace Sys2Proof.Machine

/-! ## The clock sources and the walk of a state -/

/-- `t` has the clock sources of `s`, and its walk or none. -/
structure State.SameClocks (s t : State) : Prop where
  clocks : t.ports.map PortRec.clock = s.ports.map PortRec.clock
  walk : t.walk = s.walk ∨ t.walk = none

namespace State.SameClocks

theorem refl (s : State) : s.SameClocks s := ⟨rfl, .inl rfl⟩

theorem trans {s t u : State} (a : s.SameClocks t) (b : t.SameClocks u) : s.SameClocks u where
  clocks := b.clocks.trans a.clocks
  walk := by
    obtain same | gone := b.walk
    · rw [same]; exact a.walk
    · exact .inr gone

/-- An operation that leaves both. -/
theorem of_kept {s t : State} (h : t.ports.map PortRec.clock = s.ports.map PortRec.clock ∧ t.walk = s.walk) :
    s.SameClocks t := ⟨h.1, .inl h.2⟩

/-- An operation that leaves the ports and drops the walk. -/
theorem of_dropped {s t : State} (ports : t.ports = s.ports) (walk : t.walk = none) : s.SameClocks t :=
  ⟨by rw [ports], .inr walk⟩

theorem clock {s t : State} (h : s.SameClocks t) (p : Port) : (t.ports.get p).clock = (s.ports.get p).clock := by
  have at_p := congrArg (fun x => Table.get x p) h.clocks
  simpa using at_p

theorem foldl {α : Type} (f : State → α → State) (h : ∀ (s : State) a, s.SameClocks (f s a)) (xs : List α) (s : State) :
    s.SameClocks (xs.foldl f s) := by
  induction xs generalizing s with
  | nil => exact refl s
  | cons a xs ih => exact (h s a).trans (ih (f s a))

theorem onMessage {s t : State} {m : Message} {f : State → State} (e : s.onMessage m f = .next t)
    (h : ∀ u : State, u.SameClocks (f u)) : s.SameClocks t := by
  by_cases on : m ∈ s.inFlight
  · rw [State.onMessage_taken on] at e
    cases e
    have taken : s.SameClocks { s with inFlight := s.inFlight.erase m } := .of_kept ⟨rfl, rfl⟩
    exact taken.trans (h _)
  · rw [State.onMessage_absent on] at e
    cases e
    exact refl s

theorem onRequest {s t : State} {l : Lane} {r : Request} {g : Header → Bool} {f : State → State}
    (e : s.onRequest l r g f = .next t) (h : s.SameClocks (f s)) : s.SameClocks t := by
  obtain rfl | rfl := State.onRequest_cases e
  · exact refl _
  · exact h

theorem conclude {α : Type} {s : State} {l : Lane} {checks : Checked α} {f : α → State × Answer}
    (h : ∀ x, s.SameClocks (f x).1) : s.SameClocks (s.conclude l checks f) := by
  obtain ⟨a, -, eq⟩ | ⟨x, -, eq⟩ := s.conclude_cases l checks f
  · exact eq ▸ .of_kept (by simp)
  · exact eq ▸ (h x).trans (.of_kept (by simp))

/-! ## The effects of the requests -/

theorem createEffect (s : State) (l : Lane) (q : CreateReq) (x : CreateFound) : s.SameClocks (s.createEffect l q x).1 := by
  refine .of_kept ?_
  unfold State.createEffect
  cases x.stop <;> cases x.start <;> simp [State.takeEntry]

theorem modifyEffect (s : State) (x : ModifyFound) : s.SameClocks (s.modifyEffect x).1 := by
  refine .of_kept ?_
  unfold State.modifyEffect
  cases x.apply <;> simp

theorem queryEmitterEffect (s : State) (b : Bool) (x : EmitterHandle × Record) :
    s.SameClocks (s.queryEmitterEffect b x).1 := by
  refine .of_kept ?_
  unfold State.queryEmitterEffect
  cases b <;> simp

theorem retireEffect (s : State) (n : Nat) (x : RetireFound) : s.SameClocks (s.retireEffect n x).1 := by
  refine .of_kept ?_
  unfold State.retireEffect
  cases x.outcome <;> simp

theorem defineFadeEffect (s : State) (l : Lane) (x : FadeCurve × FadeTarget) : s.SameClocks (s.defineFadeEffect l x).1 := by
  refine .of_kept ?_
  unfold State.defineFadeEffect
  split
  · simp
  · simp only
    split <;> simp

theorem retireClipEffect (s : State) (x : ClipHandle × Clip) : s.SameClocks (s.retireClipEffect x).1 := by
  refine .of_kept ?_
  unfold State.retireClipEffect
  simp only
  repeat' split
  all_goals simp

theorem queryClipEffect (s : State) (b : Bool) (x : ClipHandle × Clip) : s.SameClocks (s.queryClipEffect b x).1 := by
  refine .of_kept ?_
  unfold State.queryClipEffect
  cases b <;> simp

theorem setOutputEffect (s : State) (q : SetOutputReq) (p : Port) : s.SameClocks (s.setOutputEffect q p).1 := by
  refine .of_kept ?_
  unfold State.setOutputEffect
  simp only
  split <;> simp

theorem queryPortEffect (s : State) (b : Bool) (p : Port) : s.SameClocks (s.queryPortEffect b p).1 := by
  refine .of_kept ?_
  unfold State.queryPortEffect
  cases b <;> simp

theorem jumpTo (s : State) (time : BitVec 64) : s.SameClocks (s.jumpTo time) := by
  refine .of_kept ?_
  unfold State.jumpTo
  extract_lets d u
  obtain ⟨ports, walk⟩ : u.ports = s.ports ∧ u.walk = s.walk := ports_foldl _ (fun v i => by simp) _ s
  clear_value u
  exact ⟨congrArg (fun x => x.map PortRec.clock) ports, walk⟩

/-! ## The request engine -/

theorem abortUnit (s : State) (l : Lane) : s.SameClocks (s.abortUnit l) := by
  unfold State.abortUnit
  split
  · exact refl s
  · exact .of_kept (by simp)
  · exact .of_kept (by simp)
  · split
    case h_6 => exact .of_dropped (by simp) (by simp)
    all_goals exact .of_kept (by simp)

theorem sceneFlush {s t : State} (e : execSceneFlush s = .next t) : s.SameClocks t := by
  unfold execSceneFlush at e
  split at e
  · simp only [Host.Outcome.next.injEq] at e
    subst e
    have aborted : s.SameClocks ((List.finRange 4).foldl (fun u l => u.abortUnit l) s) :=
      foldl _ (fun u l => abortUnit u l) _ s
    generalize (List.finRange 4).foldl (fun u l => u.abortUnit l) s = u at aborted
    exact aborted.trans (.of_kept (by simp))
  · cases e; exact refl s

theorem windowAbort {s t : State} {l : Lane} (e : execWindowAbort l s = .next t) : s.SameClocks t := by
  cases e
  split
  · exact (abortUnit s l).trans (.of_kept (by simp))
  · exact abortUnit s l

theorem windowCommand {s t : State} {l : Lane} (e : execWindowStart l s = .next t ∨ execWindowResume l s = .next t) :
    s.SameClocks t := by
  refine .of_kept ?_
  obtain e | e := e
  · unfold execWindowStart at e
    simp only at e
    repeat' split at e
    all_goals cases e
    all_goals simp
  · unfold execWindowResume at e
    repeat' split at e
    all_goals cases e
    all_goals simp

theorem writeEnds {s t : State} {l : Lane} {n : Nat} (e : execWriteDone l n s = .next t ∨ execWriteFailed l n s = .next t) :
    s.SameClocks t := by
  refine .of_kept ?_
  obtain e | e := e
  · unfold execWriteDone at e
    simp only at e
    repeat' split at e
    all_goals cases e
    all_goals simp
  · unfold execWriteFailed at e
    simp only at e
    repeat' split at e
    all_goals cases e
    all_goals simp

theorem heldRequestComplete {s t : State} {l : Lane} (e : execHeldRequestComplete l s = .next t) : s.SameClocks t := by
  unfold execHeldRequestComplete at e
  split at e
  · exact onMessage e fun u => .of_kept (by simp)
  · cases e; exact refl s

/-! ## Start-up -/

theorem beginProbes (s : State) : s.SameClocks s.beginProbes := by
  have moved : s.SameClocks { s with phase := .probing } := .of_kept ⟨rfl, rfl⟩
  exact moved.trans (foldl (fun u p => u.beginExchange p .probe .startUp false) (fun u p => .of_kept (by simp)) _ _)

theorem profileReadTimeout {s t : State} (e : execProfileReadTimeout s = .next t) : s.SameClocks t := by
  have aside : s.SameClocks s.profileAside := .of_kept ⟨rfl, rfl⟩
  unfold execProfileReadTimeout at e
  split at e
  iterate 2
    split at e <;> cases e
    · exact refl s
    · exact aside.trans (beginProbes _)
  all_goals cases e; exact refl s

/-! ## The heads -/

theorem headAnswer {s t : State} {p : Port} {tag : BitVec 8} {i : BitVec 32} {n : Nat}
    (e : execProbeAnswer p tag i n s = .next t ∨ execSetRateAck p tag s = .next t ∨ execHeadExchangeTimeout p s = .next t) :
    s.SameClocks t := by
  refine .of_kept ?_
  obtain e | e | e := e
  · unfold execProbeAnswer at e
    repeat' split at e
    all_goals cases e
    all_goals simp
  · unfold execSetRateAck at e
    repeat' split at e
    all_goals cases e
    all_goals simp
  · unfold execHeadExchangeTimeout at e
    repeat' split at e
    all_goals cases e
    all_goals simp

theorem headStatusMessage {s t : State} {p : Port} {b : Bool} {c : StatusCondition} {d : BitVec 16}
    (e : execHeadStatusMessage p b c d s = .next t) : s.SameClocks t := by
  refine .of_kept ?_
  unfold execHeadStatusMessage at e
  repeat' split at e
  all_goals cases e
  all_goals simp

/-! ## The stream engine -/

theorem streamRead {s t : State} {n : SlotNo} {k : Nat} {o : ReadOutcome}
    (e : execRunReadDone n k o s = .next t ∨ execDemandReadDone n k o s = .next t) : s.SameClocks t := by
  refine .of_kept ?_
  obtain e | e := e
  · unfold execRunReadDone at e
    simp only at e
    repeat' split at e
    all_goals cases e
    all_goals simp
  · unfold execDemandReadDone at e
    simp only at e
    repeat' split at e
    all_goals cases e
    all_goals simp

theorem slotOutputSample {s t : State} {n : SlotNo} (e : execSlotOutputSample n s = .next t) : s.SameClocks t := by
  refine .of_kept ?_
  unfold execSlotOutputSample at e
  simp only at e
  repeat' split at e
  all_goals cases e
  all_goals simp

theorem startLeadExpiry {s t : State} {x : BitVec 64} (e : execStartLeadExpiry x s = .next t) : s.SameClocks t := by
  have dropped : s.SameClocks (s.dropLeads x) := .of_kept ⟨rfl, rfl⟩
  unfold execStartLeadExpiry at e
  split at e <;> cases e
  · exact dropped.trans (.of_kept (by simp))
  · exact dropped

end State.SameClocks

/-! ## Every command -/

/-- The commands that may change a clock source, or the walk otherwise than by dropping it. -/
def Instr.resetsClocks : Instr → Bool
  | .powerOn | .benchReset | .profileReadDone _ _ | .configurePort _ _ | .scan _ _ _ | .scanClassRead | .setLane _ _
  | .setLanePart => true
  | _ => false

theorem exec_sameClocks {c : Instr} {s t : State} (k : Instr.resetsClocks c = false) (e : exec c s = .next t) :
    s.SameClocks t := by
  cases c with
  | powerOn | benchReset | profileReadDone | configurePort | scan | scanClassRead | setLane | setLanePart => cases k
  | sceneFlush => exact .sceneFlush e
  | windowStart l => exact .windowCommand (.inl e)
  | windowResume l => exact .windowCommand (.inr e)
  | windowAbort l => exact .windowAbort e
  | listCommandInvalid l v =>
    refine .of_kept ?_
    dsimp only [exec, execListCommandInvalid] at e
    split at e <;> cases e <;> simp
  | causeSummaryWrite l v => cases e; exact .of_kept (by simp)
  | interruptEnableWrite l v => cases e; exact .of_kept (by simp)
  | sceneTimeReadLow b => cases b <;> cases e <;> exact .of_kept ⟨rfl, rfl⟩
  | sceneTimeReadHigh =>
    dsimp only [exec, execSceneTimeReadHigh] at e
    split at e <;> cases e <;> exact .of_kept ⟨rfl, rfl⟩
  | registerWrite n v =>
    dsimp only [exec, execRegisterWrite] at e
    split at e <;> cases e <;> exact .of_kept ⟨rfl, rfl⟩
  | profileReadTimeout => exact .profileReadTimeout e
  | fetchHeaderDone l n x =>
    refine .of_kept ?_
    dsimp only [exec, execFetchHeaderDone] at e
    split at e <;> cases e <;> simp
  | fetchRequestDone l n x =>
    refine .of_kept ?_
    dsimp only [exec, execFetchRequestDone] at e
    split at e <;> cases e <;> simp
  | fetchReadFailed l n =>
    refine .of_kept ?_
    dsimp only [exec, execFetchReadFailed] at e
    split at e <;> cases e <;> simp
  | resumeLinkReadDone l n x =>
    refine .of_kept ?_
    dsimp only [exec, execResumeLinkReadDone] at e
    split at e <;> cases e <;> simp
  | handOver =>
    refine .of_kept ?_
    dsimp only [exec, execHandOver] at e
    split at e <;> cases e <;> simp
  | heldRequestComplete l => exact .heldRequestComplete e
  | writeDone l n => exact .writeEnds (.inl e)
  | writeFailed l n => exact .writeEnds (.inr e)
  | nop l =>
    dsimp only [exec, execNop] at e
    exact .onRequest e (.of_kept (by simp))
  | create l q b =>
    dsimp only [exec, execCreate] at e
    exact .onRequest e (.conclude fun x => .createEffect s l q x)
  | start l q b =>
    dsimp only [exec, execStart] at e
    exact .onRequest e (.conclude fun x => .of_kept (by simp [State.startEffect]))
  | modify l q =>
    dsimp only [exec, execModify] at e
    exact .onRequest e (.conclude fun x => .modifyEffect s x)
  | pause l h =>
    dsimp only [exec, execPause] at e
    exact .onRequest e (.conclude fun x => .of_kept (by simp [State.pauseEffect]))
  | resume l h =>
    dsimp only [exec, execResume] at e
    exact .onRequest e (.conclude fun x => .of_kept (by simp [State.resumeEffect]))
  | retire l q =>
    dsimp only [exec, execRetire] at e
    exact .onRequest e (.conclude fun x => .retireEffect s q.ramp x)
  | queryEmitter l h b =>
    dsimp only [exec, execQueryEmitter] at e
    exact .onRequest e (.conclude fun x => .queryEmitterEffect s b x)
  | defineFade l q =>
    dsimp only [exec, execDefineFade] at e
    exact .onRequest e (.conclude fun x => .defineFadeEffect s l x)
  | retireFade l h =>
    dsimp only [exec, execRetireFade] at e
    exact .onRequest e (.conclude fun x => .of_kept (by simp [State.retireFadeEffect]))
  | flushLane l x =>
    dsimp only [exec, execFlushLane] at e
    exact .onRequest e (.conclude fun x => .of_kept (by simp [State.flushEffect]))
  | defineClip l q =>
    dsimp only [exec, execDefineClip] at e
    exact .onRequest e (.conclude fun x => .of_kept (by simp [State.defineClipEffect]))
  | loadClip l q =>
    dsimp only [exec, execLoadClip] at e
    refine .onRequest e (.of_kept ?_)
    split <;> simp [State.acceptLoad]
  | loadCopyEnd n b =>
    refine .of_kept ?_
    dsimp only [exec, execLoadCopyEnd] at e
    repeat' split at e
    all_goals cases e
    all_goals simp
  | retireClip l h =>
    dsimp only [exec, execRetireClip] at e
    exact .onRequest e (.conclude fun x => .retireClipEffect s x)
  | queryClip l h b =>
    dsimp only [exec, execQueryClip] at e
    exact .onRequest e (.conclude fun x => .queryClipEffect s b x)
  | restartPort l p =>
    dsimp only [exec, execRestartPort] at e
    refine .onRequest e (.of_kept ?_)
    split <;> simp
  | setOutput l q =>
    dsimp only [exec, execSetOutput] at e
    exact .onRequest e (.conclude fun x => .setOutputEffect s q x)
  | queryPort l p b =>
    dsimp only [exec, execQueryPort] at e
    exact .onRequest e (.conclude fun x => .queryPortEffect s b x)
  | setTime l x =>
    dsimp only [exec, execSetTime] at e
    exact .onRequest e (.conclude fun _ => .jumpTo s x)
  | spentExpiry h => exact .onMessage e (fun u => .of_kept (by simp))
  | startLeadExpiry x => exact .startLeadExpiry e
  | startTimeExpiry h => exact .onMessage e (fun u => .of_kept (by simp))
  | stopPointExpiry h x => exact .onMessage e (fun u => .of_kept (by simp))
  | atApplyExpiry h n => exact .onMessage e (fun u => .of_kept (by simp))
  | nextFrameApplyExpiry h n => exact .onMessage e (fun u => .of_kept (by simp))
  | rampEndExpiry h => exact .onMessage e (fun u => .of_kept (by simp))
  | fadeReplacementExpiry h => exact .onMessage e (fun u => .of_kept (by simp))
  | outputChangeExpiry p => exact .onMessage e (fun u => .of_kept (by simp))
  | triggerLineChange x b =>
    refine .of_kept ?_
    dsimp only [exec, execTriggerLineChange] at e
    split at e <;> cases e <;> simp
  | triggerQualified x => cases e; exact .of_kept (by simp)
  | triggerEdge x y => exact .onMessage e (fun u => .of_kept (by simp))
  | grant =>
    refine .of_kept ?_
    dsimp only [exec, execGrant] at e
    split at e <;> cases e <;> simp
  | runReadDone n k o => exact .streamRead (.inl e)
  | primedReport h => exact .onMessage e (fun u => .of_kept (by simp))
  | slotOutputSample n => exact .slotOutputSample e
  | endOfClipReport h => exact .onMessage e (fun u => .of_kept (by simp))
  | cueCrossing h q y => exact .onMessage e (fun u => .of_kept (by simp))
  | cuePulseEnd q =>
    refine .of_kept ?_
    dsimp only [exec, execCuePulseEnd] at e
    repeat' split at e
    all_goals cases e
    all_goals simp
  | demandReadDone n k o => exact .streamRead (.inr e)
  | recoveredReport h => exact .onMessage e (fun u => .of_kept (by simp))
  | failureReport h => exact .onMessage e (fun u => .of_kept (by simp))
  | readCountMessage c o => exact .onMessage e (fun u => .of_kept (by simp))
  | clipReferenceRelease c =>
    refine .of_kept ?_
    dsimp only [exec, execClipReferenceRelease] at e
    repeat' split at e
    all_goals cases e
    all_goals simp
  | portJoin p h w => cases e; exact .of_kept (by simp [State.joinPort])
  | portWeight p h w => cases e; exact .of_kept (by simp [State.weighPort])
  | portLeave p h => cases e; exact .of_kept (by simp [State.leavePort])
  | reservationClaim p h b w => cases e; exact .of_kept (by simp [State.claimPort])
  | reservationRelease p h => cases e; exact .of_kept (by simp [State.releasePort])
  | portOutputSample p => cases e; exact .of_kept (by simp)
  | probeAnswer p tag i n => exact .headAnswer (tag := tag) (i := i) (n := n) (.inl e)
  | setRateAck p tag => exact .headAnswer (tag := tag) (i := 0) (n := 0) (.inr (.inl e))
  | headExchangeTimeout p => exact .headAnswer (tag := 0) (i := 0) (n := 0) (.inr (.inr e))
  | headStatusMessage p b c d => exact .headStatusMessage e
  | copyHostReadDone n bs =>
    refine .of_kept ?_
    dsimp only [exec, execCopyHostReadDone] at e
    repeat' split at e
    all_goals cases e
    all_goals simp

end Sys2Proof.Machine
end

section
/-!
SUPPORT. No port follows a follower (R148, R159, R189), and the supervising lane has no host window (R177, R183).
-/

namespace Sys2Proof.Machine

/-! ## Leaders -/

/-- The invariant of the leaders speaks of the clock sources alone. -/
theorem State.followSound_congr {s t : State} (h : ∀ p, (t.ports.get p).clock = (s.ports.get p).clock) (a : s.followSound) :
    t.followSound := by
  intro p k follows
  rw [h] at follows
  obtain ⟨other, leads⟩ := a p k follows
  exact ⟨other, fun j => by rw [h]; exact leads j⟩

theorem State.SameClocks.followSound {s t : State} (h : s.SameClocks t) : s.followSound → t.followSound :=
  State.followSound_congr h.clock

/-- What the profile loader asks of a PORTS section is the invariant (R189). -/
theorem State.followsWell_iff (s : State) : s.followsWell = true ↔ s.followSound := by
  unfold State.followsWell State.followSound
  simp only [List.all_eq_true, List.mem_finRange, forall_true_left]
  refine forall_congr' fun p => ?_
  cases hp : (s.ports.get p).clock with
  | follow k =>
    cases hk : (s.ports.get k).clock <;> simp [hk]
  | synth d => simp
  | external n => simp

/-- A section of the bench profile leaves no port that follows a follower. -/
theorem State.applySection_followSound {s t : State} {kind spare : Nat} {body : List Byte} (a : s.followSound)
    (e : s.applySection kind spare body = some t) : t.followSound := by
  unfold State.applySection at e
  split at e
  · cases e
  · split at e
    · obtain ⟨xs, -, e⟩ := Option.bind_eq_some_iff.1 e
      unfold State.portsSection at e
      simp only at e
      split at e
      · rename_i well
        cases e
        exact (State.followsWell_iff _).1 well
      · cases e
    · obtain ⟨xs, -, e⟩ := Option.map_eq_some_iff.1 e
      exact (State.SameClocks.foldl State.profileTriggerSet (fun u x => .of_kept ⟨rfl, rfl⟩) xs s).followSound a |> (e ▸ ·)
    · obtain ⟨xs, -, e⟩ := Option.map_eq_some_iff.1 e
      exact (State.SameClocks.foldl State.profileLane (fun u x => .of_kept ⟨rfl, rfl⟩) xs s).followSound a |> (e ▸ ·)
    · cases e

theorem State.takeSections_followSound (n : Nat) (bytes : List Byte) {s : State} (a : s.followSound) :
    (State.takeSections n bytes s).followSound := by
  induction n generalizing bytes s with
  | zero => exact a
  | succ n ih =>
    unfold State.takeSections
    simp only
    split
    · exact a
    · split
      · rename_i e
        exact ih _ (State.applySection_followSound a e)
      · exact ih _ a

theorem profileReadDone_followSound {s t : State} {tag : Nat} {f : FlashRead} (a : s.followSound)
    (e : execProfileReadDone tag f s = .next t) : t.followSound := by
  have probes {u : State} (b : u.followSound) : u.beginProbes.followSound := (State.SameClocks.beginProbes u).followSound b
  unfold execProfileReadDone at e
  split at e
  · split at e <;> cases e
    · unfold State.takeProfileHeader
      split
      · exact probes a
      · split
        · exact a
        · exact probes a
    · exact a
  · split at e <;> cases e
    · refine probes ?_
      unfold State.settleProfile
      split
      · exact a
      · split
        · exact State.takeSections_followSound _ _ a
        · exact a
    · exact a
  all_goals cases e; exact a

/-- Checks in order, of any form: an outcome that is accepted has passed the first. -/
theorem checked_bind_ok {α β : Type} {x : Checked α} {f : α → Checked β} {y : β} :
    (x.bind f = .ok y) ↔ ∃ a, x = .ok a ∧ f a = .ok y := by
  cases x <;> simp [Except.bind]

/-- The checks of a CONFIGURE_PORT have asked that a leader leads (R159, step 5). -/
theorem State.checkConfigure_follow {s : State} {l : Lane} {q : ConfigurePortReq} {x : ConfigureFound}
    (e : s.checkConfigure l q = .ok x) : s.followAllowed x.port x.clock = true := by
  obtain ⟨-, e⟩ := need_bind_ok.1 e
  obtain ⟨p, -, e⟩ := want_bind_ok.1 e
  obtain ⟨c, -, e⟩ := checked_bind_ok.1 e
  obtain ⟨-, e⟩ := need_bind_ok.1 e
  obtain ⟨owner, -, e⟩ := want_bind_ok.1 e
  obtain ⟨-, e⟩ := need_bind_ok.1 e
  obtain ⟨-, e⟩ := needPorts_bind_ok.1 e
  obtain ⟨follows, e⟩ := needPorts_bind_ok.1 e
  obtain ⟨-, e⟩ := needPorts_bind_ok.1 e
  obtain ⟨-, e⟩ := needPorts_bind_ok.1 e
  cases e
  exact follows p (List.mem_singleton.2 rfl)

/-- A clock source that is allowed at a port leaves no port that follows a follower. -/
theorem State.followAllowed.keeps {s t : State} {p : Port} {c : Clock} (allowed : s.followAllowed p c = true)
    (here : (t.ports.get p).clock = c) (others : ∀ k, k ≠ p → (t.ports.get k).clock = (s.ports.get k).clock)
    (a : s.followSound) : t.followSound := by
  intro j k follows
  by_cases jp : j = p
  · subst jp
    rw [here] at follows
    subst follows
    obtain ⟨⟨ne, leads⟩, -⟩ : (k ≠ j ∧ ∀ i, (s.ports.get k).clock ≠ .follow i) ∧ (s.followers j).isEmpty = true := by
      simp only [State.followAllowed, Bool.and_eq_true, bne_iff_ne] at allowed
      obtain ⟨⟨ne, leads⟩, none⟩ := allowed
      refine ⟨⟨ne, fun i eq => ?_⟩, none⟩
      rw [eq] at leads
      cases leads
    exact ⟨ne, fun i => by rw [others k ne]; exact leads i⟩
  · rw [others j jp] at follows
    obtain ⟨ne, leads⟩ := a j k follows
    refine ⟨ne, fun i => ?_⟩
    by_cases kp : k = p
    · subst kp
      rw [here]
      rintro rfl
      simp only [State.followAllowed, Bool.and_eq_true, List.isEmpty_iff] at allowed
      obtain ⟨-, none⟩ := allowed
      have listed : j ∈ s.followers k := by simp [State.followers, follows]
      rw [none] at listed
      cases listed
    · rw [others k kp]
      exact leads i

theorem configurePort_followSound {s t : State} {l : Lane} {q : ConfigurePortReq} (a : s.followSound)
    (e : execConfigurePort l q s = .next t) : t.followSound := by
  obtain rfl | rfl := State.onRequest_cases e
  · exact a
  split
  · exact State.SameClocks.followSound (.of_kept (by simp)) a
  · rename_i x ok
    have allowed := State.checkConfigure_follow ok
    unfold State.acceptConfigure
    extract_lets told u v
    have begun : u.SameClocks v := .foldl _ (fun w p => .of_kept (by simp)) _ _
    have held : v.SameClocks (v.hold l) := .of_kept (by simp)
    refine State.followAllowed.keeps allowed ?_ (fun k ne => ?_) a
    · rw [held.clock, begun.clock]
      simp [u, State.modifyPort]
    · rw [held.clock, begun.clock]
      simp [u, State.modifyPort, Table.get_set_ne _ _ _ _ ne]

/-! ## The walk -/

/-- One owner's event of a SCAN clears what it has reported, and touches no clock source (R182). -/
theorem State.scanStep_clocks (s : State) (w : ScanWalk) :
    (s.scanStep w).ports.map PortRec.clock = s.ports.map PortRec.clock := by
  unfold State.scanStep
  extract_lets found n written t v
  have cleared : t.ports.map PortRec.clock = s.ports.map PortRec.clock := by
    by_cases c : w.clear = true
    · simp [t, c, clocks_foldl State.clearScanned (fun u e => by simp)]
    · simp [t, c]
  rw [← cleared]
  repeat' split
  all_goals simp [State.finishScan]

/-- The parts of a SET_LANE touch no port (R183). -/
theorem State.takePart_ports (s : State) (p : LanePart) : (s.takePart p).ports = s.ports := by
  cases p with
  | window target w => rfl
  | interval target ms => rfl
  | triggers xs => exact (ports_foldl State.setTriggerSetting (fun u x => by simp) xs s).1

@[simp] theorem State.afterPart_ports (s : State) (l : Lane) (rest : List LanePart) : (s.afterPart l rest).ports = s.ports := by
  unfold State.afterPart
  split <;> simp

/-! The commands that carry a SCAN or SET_LANE on touch no clock source. -/

theorem scan_clocks {s t : State} {l : Lane} {first : Option ScanStart} {b : Bool} (e : execScan l first b s = .next t) :
    t.ports.map PortRec.clock = s.ports.map PortRec.clock := by
  obtain rfl | rfl := State.onRequest_cases e
  · rfl
  · split <;> simp [State.beginScan]

theorem scanClassRead_clocks {s t : State} (e : execScanClassRead s = .next t) :
    t.ports.map PortRec.clock = s.ports.map PortRec.clock := by
  unfold execScanClassRead at e
  split at e <;> cases e
  · exact s.scanStep_clocks _
  all_goals rfl

theorem setLane_clocks {s t : State} {l : Lane} {q : SetLaneReq} (e : execSetLane l q s = .next t) :
    t.ports.map PortRec.clock = s.ports.map PortRec.clock := by
  obtain rfl | rfl := State.onRequest_cases e
  · rfl
  · split <;> simp

theorem setLanePart_clocks {s t : State} (e : execSetLanePart s = .next t) :
    t.ports.map PortRec.clock = s.ports.map PortRec.clock := by
  unfold execSetLanePart at e
  split at e <;> cases e
  · simp [State.takePart_ports]
  all_goals rfl

/-- Every port has its default clock source after a reset (R166). -/
theorem followSound_of_reset {s : State} (h : ∀ p, (s.ports.get p).clock = .synth 2) : s.followSound := by
  intro p k follows
  rw [h] at follows
  cases follows

theorem exec_followSound (c : Instr) (s t : State) (a : s.followSound) (e : exec c s = .next t) : t.followSound := by
  have of_clocks (h : t.ports.map PortRec.clock = s.ports.map PortRec.clock) : t.followSound :=
    State.followSound_congr (fun p => by simpa using congrArg (fun x => Table.get x p) h) a
  by_cases k : Instr.resetsClocks c = false
  · exact (exec_sameClocks k e).followSound a
  · cases c with
    | powerOn => cases e; exact followSound_of_reset fun p => by simp [State.reset, PortRec.initial]
    | benchReset => cases e; exact followSound_of_reset fun p => by simp [PortRec.afterReset, PortRec.initial]
    | profileReadDone n f => exact profileReadDone_followSound a e
    | configurePort l q => exact configurePort_followSound a e
    | scan l first b => exact of_clocks (scan_clocks e)
    | scanClassRead => exact of_clocks (scanClassRead_clocks e)
    | setLane l q => exact of_clocks (setLane_clocks e)
    | setLanePart => exact of_clocks (setLanePart_clocks e)
    | _ => exact absurd rfl k

theorem State.tick_ports (s : State) : s.tick.ports = s.ports ∧ s.tick.walk = s.walk := by
  unfold State.tick
  simp only
  split <;> exact ⟨rfl, rfl⟩

theorem State.tick_followSound (s : State) (a : s.followSound) : s.tick.followSound :=
  State.followSound_congr (fun p => by rw [s.tick_ports.1]) a

end Sys2Proof.Machine
end

section
/-!
SUPPORT. The supervising lane has no host window, and no SET_LANE in progress gives it one (R177, R183, R189).
-/

namespace Sys2Proof.Machine

/-! ## The window of the supervising lane -/

/-- The supervising lane is without a host window in `t` where it is in `s`. -/
def State.StaysFree (s t : State) : Prop := (s.units.get 0).window = none → (t.units.get 0).window = none

theorem State.StaysFree.trans {s t u : State} (a : s.StaysFree t) (b : t.StaysFree u) : s.StaysFree u := b ∘ a

theorem State.StaysFree.of_units {s t : State} (h : t.units = s.units) : s.StaysFree t := fun free => by rwa [h]

theorem State.Calm.staysFree {s t : State} (h : s.Calm t) : s.StaysFree t := fun free => by rwa [h.window]

theorem State.StaysFree.foldl {α : Type} (f : State → α → State) (xs : List α) (h : ∀ (s : State), ∀ a ∈ xs, s.StaysFree (f s a))
    (s : State) : s.StaysFree (xs.foldl f s) := by
  induction xs generalizing s with
  | nil => exact id
  | cons a xs ih =>
    exact (h s a (List.mem_cons_self ..)).trans (ih (fun u b mem => h u b (List.mem_cons_of_mem _ mem)) _)

/-! ### Start-up -/

/-- An entry of a LANES section gives the supervising lane no window (R189). -/
theorem laneSetting_supervisor {bytes : List Byte} {x : LaneSetting} (e : laneSetting bytes = some x) (zero : x.lane = 0) :
    x.window = none := by
  unfold laneSetting at e
  obtain ⟨l, -, e⟩ := Option.bind_eq_some_iff.1 e
  obtain ⟨w, hw, e⟩ := Option.bind_eq_some_iff.1 e
  split at e <;> cases e
  simp only at zero
  subst zero
  unfold profileWindow at hw
  split at hw
  · split at hw <;> cases hw
    rfl
  · split at hw
    · rename_i c
      exact absurd rfl c.1
    · cases hw
  · cases hw

/-- What a list of readings gives comes each from one of them. -/
theorem mem_of_mapM_some {α β : Type} {f : α → Option β} {xs : List α} {ys : List β} (e : xs.mapM f = some ys) {y : β}
    (mem : y ∈ ys) : ∃ x ∈ xs, f x = some y := by
  induction xs generalizing ys with
  | nil => cases e; cases mem
  | cons x xs ih =>
    rw [List.mapM_cons] at e
    obtain ⟨z, hz, e⟩ := Option.bind_eq_some_iff.1 e
    obtain ⟨zs, hzs, e⟩ := Option.bind_eq_some_iff.1 e
    cases e
    obtain rfl | mem := List.mem_cons.1 mem
    · exact ⟨x, List.mem_cons_self .., hz⟩
    · obtain ⟨w, hw, r⟩ := ih hzs mem
      exact ⟨w, List.mem_cons_of_mem _ hw, r⟩

/-- The settings of a body are read from its entries. -/
theorem settingsOf_mem {α : Type} {size : Nat} {read : List Byte → Option α} {name : α → Nat} {body : List Byte} {xs : List α}
    (e : settingsOf size read name body = some xs) {x : α} (mem : x ∈ xs) : ∃ bytes, read bytes = some x := by
  unfold settingsOf at e
  split at e
  · cases e
  · split at e
    · rename_i ys h
      split at e <;> cases e
      obtain ⟨bytes, -, r⟩ := mem_of_mapM_some h mem
      exact ⟨bytes, r⟩
    · cases e

theorem State.applySection_staysFree {s t : State} {kind spare : Nat} {body : List Byte}
    (e : s.applySection kind spare body = some t) : s.StaysFree t := by
  unfold State.applySection at e
  split at e
  · cases e
  · split at e
    · obtain ⟨xs, -, e⟩ := Option.bind_eq_some_iff.1 e
      unfold State.portsSection at e
      simp only at e
      split at e <;> cases e
      exact .foldl State.profilePort xs (fun u x _ => .of_units rfl) s
    · obtain ⟨xs, -, e⟩ := Option.map_eq_some_iff.1 e
      exact e ▸ .foldl State.profileTriggerSet xs (fun u x _ => .of_units rfl) s
    · obtain ⟨xs, read, e⟩ := Option.map_eq_some_iff.1 e
      refine e ▸ .foldl State.profileLane xs (fun u x mem free => ?_) s
      obtain ⟨bytes, r⟩ := settingsOf_mem read mem
      simp only [State.profileLane, State.setUnit, Table.get_set]
      split
      · rename_i zero
        exact laneSetting_supervisor r zero.symm
      · exact free
    · cases e

theorem State.takeSections_staysFree (n : Nat) (bytes : List Byte) (s : State) :
    s.StaysFree (State.takeSections n bytes s) := by
  induction n generalizing bytes s with
  | zero => exact id
  | succ n ih =>
    unfold State.takeSections
    simp only
    split
    · exact .of_units rfl
    · split
      · rename_i e
        exact (State.applySection_staysFree e).trans (ih _ _)
      · exact State.StaysFree.trans (.of_units rfl) (ih _ s.skipSection)

theorem State.beginProbes_staysFree (s : State) : s.StaysFree s.beginProbes := by
  have moved : s.StaysFree { s with phase := .probing } := .of_units rfl
  exact moved.trans (.foldl _ _ (fun u p _ => (State.Calm.refl u).beginExchange.staysFree) _)

theorem State.asideProbes_staysFree (s : State) : s.StaysFree s.profileAside.beginProbes :=
  State.StaysFree.trans (.of_units rfl) s.profileAside.beginProbes_staysFree

theorem profileReadDone_staysFree {s t : State} {tag : Nat} {f : FlashRead} (e : execProfileReadDone tag f s = .next t) :
    s.StaysFree t := by
  unfold execProfileReadDone at e
  split at e
  · split at e <;> cases e
    · unfold State.takeProfileHeader
      split
      · exact s.asideProbes_staysFree
      · split
        · exact .of_units rfl
        · exact s.asideProbes_staysFree
    · exact id
  · split at e <;> cases e
    · refine State.StaysFree.trans ?_ (State.beginProbes_staysFree _)
      unfold State.settleProfile
      split
      · exact .of_units rfl
      · split
        · exact s.takeSections_staysFree _ _
        · exact .of_units rfl
    · exact id
  all_goals cases e; exact id

theorem profileReadTimeout_staysFree {s t : State} (e : execProfileReadTimeout s = .next t) : s.StaysFree t := by
  unfold execProfileReadTimeout at e
  split at e
  iterate 2
    split at e <;> cases e
    · exact id
    · exact s.asideProbes_staysFree
  all_goals cases e; exact id

/-! ### The heads, and the window -/

theorem State.settlePort_staysFree (s : State) (f : ExchangeFor) (a : Answer) : s.StaysFree (s.settlePort f a) := by
  unfold State.settlePort
  split
  · unfold State.checkReady
    split
    · exact .of_units rfl
    · exact id
  · exact (State.Calm.refl s).completeHeld.staysFree
  · exact (State.Calm.refl s).settleConfigure.staysFree

/-- An exchange that ends is calm up to what brings its port to rest. -/
theorem State.probeAnswered_calm (s : State) (p : Port) (x : Exchange) (i : BitVec 32) (n : Nat) :
    s.Calm (s.probeAnswered p x i n) ∨ ∃ u a, s.Calm u ∧ s.probeAnswered p x i n = u.settlePort x.purpose a := by
  unfold State.probeAnswered
  extract_lets t u
  have read : s.Calm t := .modifyPort (State.Calm.refl s).endExchange
  split
  · exact .inr ⟨u, _, read.headFault, rfl⟩
  · exact .inl read.beginExchange

theorem State.rateAcknowledged_calm (s : State) (p : Port) (x : Exchange) :
    ∃ u a, s.Calm u ∧ s.rateAcknowledged p x = u.settlePort x.purpose a :=
  ⟨_, _, .modifyPort (State.Calm.refl s).endExchange, rfl⟩

theorem State.probeTimedOut_calm (s : State) (p : Port) (x : Exchange) :
    ∃ u a, s.Calm u ∧ s.probeTimedOut p x = u.settlePort x.purpose a := by
  refine ⟨_, _, ?_, rfl⟩
  split
  · exact .raisePort (.modifyPort (State.Calm.refl s).endExchange)
  · exact .modifyPort (State.Calm.refl s).endExchange

theorem State.rateTimedOut_calm (s : State) (p : Port) (x : Exchange) :
    ∃ u a, s.Calm u ∧ s.rateTimedOut p x = u.settlePort x.purpose a := by
  have faulted := ((State.Calm.refl s).endExchange (p := p)).headFault (p := p) (c := .noResponse) (v := 0)
  unfold State.rateTimedOut
  cases x.purpose with
  | startUp => exact ⟨_, _, faulted, rfl⟩
  | restart l => exact ⟨_, _, faulted, rfl⟩
  | configure l home => exact ⟨_, _, faulted.noteSilent, rfl⟩

/-- An answer of a head, or a time that has run out, is calm up to what brings a port to rest. -/
theorem head_calm {s t : State} {p : Port} {tag : BitVec 8} {i : BitVec 32} {n : Nat}
    (e : execProbeAnswer p tag i n s = .next t ∨ execSetRateAck p tag s = .next t ∨ execHeadExchangeTimeout p s = .next t) :
    s.Calm t ∨ ∃ u f a, s.Calm u ∧ t = u.settlePort f a := by
  obtain e | e | e := e
  · unfold execProbeAnswer at e
    split at e
    · cases e; exact .inl (.refl s)
    · split at e <;> cases e
      · obtain calm | ⟨u, a, calm, eq⟩ := s.probeAnswered_calm p _ i n
        · exact .inl calm
        · exact .inr ⟨u, _, a, calm, eq⟩
      · exact .inl (State.Calm.refl s).headFault
  · unfold execSetRateAck at e
    split at e
    · cases e; exact .inl (.refl s)
    · split at e <;> cases e
      · obtain ⟨u, a, calm, eq⟩ := s.rateAcknowledged_calm p _
        exact .inr ⟨u, _, a, calm, eq⟩
      · exact .inl (State.Calm.refl s).headFault
  · unfold execHeadExchangeTimeout at e
    split at e
    · cases e; exact .inl (.refl s)
    · split at e
      · split at e <;> cases e
        · obtain ⟨u, a, calm, eq⟩ := s.probeTimedOut_calm p _
          exact .inr ⟨u, _, a, calm, eq⟩
        · obtain ⟨u, a, calm, eq⟩ := s.rateTimedOut_calm p _
          exact .inr ⟨u, _, a, calm, eq⟩
      · cases e; exact .inl (.refl s)

theorem head_staysFree {s t : State} {p : Port} {tag : BitVec 8} {i : BitVec 32} {n : Nat}
    (e : execProbeAnswer p tag i n s = .next t ∨ execSetRateAck p tag s = .next t ∨ execHeadExchangeTimeout p s = .next t) :
    s.StaysFree t := by
  obtain calm | ⟨u, f, a, calm, rfl⟩ := head_calm e
  · exact calm.staysFree
  · exact calm.staysFree.trans (u.settlePort_staysFree f a)

theorem registerWrite_staysFree {s t : State} {n : Nat} {v : BitVec 64} (e : execRegisterWrite n v s = .next t) :
    s.StaysFree t := by
  unfold execRegisterWrite at e
  split at e <;> cases e
  · intro free
    simp only [State.setUnit, Table.get_set]
    split
    · rename_i zero
      subst zero
      exact free
    · exact free
  · exact id

/-- A hand-over moves the pointer, and is otherwise calm. -/
theorem State.handOver_calm (s : State) (l : Lane) : ({ s with pointer := l } : State).Calm (s.handOver l) := by
  unfold State.handOver
  simp only
  split
  · split
    · exact (State.Calm.refl _).setUnit rfl rfl
    · exact (State.Calm.refl _).answer
  · exact (State.Calm.refl _).answer

theorem State.jumpTo_units (s : State) (time : BitVec 64) : s.StaysFree (s.jumpTo time) := by
  unfold State.jumpTo
  extract_lets d u
  have entries : s.Calm u := State.Calm.foldl _ (fun v i => (State.Calm.refl v).jumpEntry) _ _
  clear_value u
  exact entries.staysFree.trans (.of_units rfl)

/-- Every command but the part of a SET_LANE leaves the supervising lane free. -/
theorem exec_staysFree {c : Instr} {s t : State} (k : c ≠ .setLanePart) (e : exec c s = .next t) : s.StaysFree t := by
  by_cases stirs : Instr.stirs c = false
  · exact (exec_calm stirs e).staysFree
  · cases c with
    | powerOn => cases e; exact fun _ => rfl
    | benchReset => cases e; exact fun _ => rfl
    | setLanePart => exact absurd rfl k
    | sceneTimeReadLow b => cases b <;> cases e <;> exact .of_units rfl
    | sceneTimeReadHigh =>
      dsimp only [exec, execSceneTimeReadHigh] at e
      split at e <;> cases e <;> exact .of_units rfl
    | registerWrite n v => exact registerWrite_staysFree e
    | profileReadDone n f => exact profileReadDone_staysFree e
    | profileReadTimeout => exact profileReadTimeout_staysFree e
    | handOver =>
      dsimp only [exec, execHandOver] at e
      split at e <;> cases e
      · rename_i l _
        have moved : s.StaysFree { s with pointer := l } := .of_units rfl
        exact moved.trans (s.handOver_calm l).staysFree
      · exact id
    | create l q b =>
      obtain calm | ⟨x, r, calm⟩ := create_takes e
      · exact calm.staysFree
      · exact State.StaysFree.trans (.of_units rfl) calm.staysFree
    | defineFade l q =>
      obtain calm | ⟨i, p, calm⟩ := defineFade_takes e
      · exact calm.staysFree
      · exact State.StaysFree.trans (.of_units rfl) calm.staysFree
    | defineClip l q =>
      obtain calm | ⟨-, i, calm⟩ := defineClip_takes e
      · exact calm.staysFree
      · exact State.StaysFree.trans (.of_units rfl) calm.staysFree
    | setTime l x =>
      dsimp only [exec, execSetTime] at e
      obtain rfl | rfl := State.onRequest_cases e
      · exact id
      obtain ⟨a, -, eq⟩ | ⟨y, -, eq⟩ := s.conclude_cases l (s.checkSetTime l) (s.setTimeEffect x)
      · exact eq ▸ (State.Calm.refl s).answer.staysFree
      · exact eq ▸ (s.jumpTo_units x).trans (State.Calm.refl _).answer.staysFree
    | grant =>
      obtain calm | ⟨u, n, h, rate, start, before, -, -, calm⟩ := grant_takes e
      · exact calm.staysFree
      · exact before.staysFree.trans (State.StaysFree.trans (.of_units rfl) calm.staysFree)
    | probeAnswer p tag i n => exact head_staysFree (.inl e)
    | setRateAck p tag => exact head_staysFree (i := 0) (n := 0) (.inr (.inl e))
    | headExchangeTimeout p => exact head_staysFree (tag := 0) (i := 0) (n := 0) (.inr (.inr e))
    | copyHostReadDone n bs =>
      obtain calm | ⟨i, c, copied, -, -, calm⟩ := copyHostReadDone_writes e
      · exact calm.staysFree
      · exact State.StaysFree.trans (.of_units rfl) calm.staysFree
    | _ => exact absurd rfl stirs

/-! ## The parts of a SET_LANE -/

/-- No part of a SET_LANE in progress is a window of the supervising lane. -/
def State.PartsFree (s : State) : Prop :=
  ∀ l parts target w, s.walk = some (.setLane l parts) → LanePart.window target w ∈ parts → target ≠ 0

theorem State.supervisorFree_iff (s : State) : s.supervisorFree ↔ (s.units.get 0).window = none ∧ s.PartsFree := Iff.rfl

theorem State.PartsFree.of_walk {s t : State} (a : s.PartsFree) (h : t.walk = s.walk ∨ t.walk = none) : t.PartsFree := by
  intro l parts target w walk
  obtain h | h := h
  · exact a l parts target w (h ▸ walk)
  · rw [h] at walk
    cases walk

theorem State.partsFree_of_scan {s : State} {v : ScanWalk} (h : s.walk = some (.scan v)) : s.PartsFree := by
  intro l parts target w walk
  rw [h] at walk
  cases walk

/-- The window that an accepted SET_LANE carries is of another lane (R183, step 2). -/
theorem checkSetLane_window {l : Lane} {q : SetLaneReq} {parts : List LanePart} (e : checkSetLane l q = .ok parts)
    {target : Lane} {w : HostWindow} (mem : LanePart.window target w ∈ parts) : target ≠ 0 := by
  obtain ⟨-, e⟩ := need_bind_ok.1 e
  obtain ⟨lane, -, e⟩ := want_bind_ok.1 e
  obtain ⟨ranges, e⟩ := need_bind_ok.1 e
  obtain ⟨-, e⟩ := need_bind_ok.1 e
  cases e
  simp only [Bool.and_eq_true] at ranges
  obtain ⟨⟨inRange, -⟩, -⟩ := ranges
  unfold windowInRange at inRange
  cases window : q.window with
  | none =>
    simp [laneParts, window] at mem
  | some x =>
    simp only [window, Bool.and_eq_true, bne_iff_ne] at inRange
    simp [laneParts, window] at mem
    exact mem.1 ▸ inRange.1

end Sys2Proof.Machine
end

section
/-!
SUPPORT. The walk of a SET_LANE through the commands that begin one or go on with one (R183): no part of it becomes a window of
the supervising lane. With the window itself, this gives what every step keeps of the supervising lane.
-/

namespace Sys2Proof.Machine

/-! ## The walk -/

theorem State.foldl_walk {α : Type} (f : State → α → State) (h : ∀ (s : State) a, (f s a).walk = s.walk) (xs : List α)
    (s : State) : (xs.foldl f s).walk = s.walk := by
  induction xs generalizing s with
  | nil => rfl
  | cons a xs ih => exact (ih (f s a)).trans (h s a)

theorem State.applySection_walk {s t : State} {kind spare : Nat} {body : List Byte}
    (e : s.applySection kind spare body = some t) : t.walk = s.walk := by
  unfold State.applySection at e
  split at e
  · cases e
  · split at e
    · obtain ⟨xs, -, e⟩ := Option.bind_eq_some_iff.1 e
      unfold State.portsSection at e
      simp only at e
      split at e <;> cases e
      exact State.foldl_walk State.profilePort (fun _ _ => rfl) xs s
    · obtain ⟨xs, -, rfl⟩ := Option.map_eq_some_iff.1 e
      exact State.foldl_walk State.profileTriggerSet (fun _ _ => rfl) xs s
    · obtain ⟨xs, -, rfl⟩ := Option.map_eq_some_iff.1 e
      exact State.foldl_walk State.profileLane (fun _ _ => rfl) xs s
    · cases e

theorem State.takeSections_walk (n : Nat) (bytes : List Byte) (s : State) : (State.takeSections n bytes s).walk = s.walk := by
  induction n generalizing bytes s with
  | zero => rfl
  | succ n ih =>
    unfold State.takeSections
    simp only
    split
    · rfl
    · refine (ih _ _).trans ?_
      split
      · rename_i e
        exact State.applySection_walk e
      · rfl

theorem State.settleProfile_walk (s : State) (n : Nat) (f : FlashRead) : (s.settleProfile n f).walk = s.walk := by
  unfold State.settleProfile
  split
  · rfl
  · split
    · exact State.takeSections_walk _ _ s
    · rfl

theorem profileReadDone_walk {s t : State} {tag : Nat} {f : FlashRead} (e : execProfileReadDone tag f s = .next t) :
    t.walk = s.walk ∨ t.walk = none := by
  unfold execProfileReadDone at e
  split at e
  · split at e <;> cases e
    · unfold State.takeProfileHeader
      split
      · exact (State.SameClocks.beginProbes s.profileAside).walk
      · split
        · exact .inl rfl
        · exact (State.SameClocks.beginProbes s.profileAside).walk
    · exact .inl rfl
  · split at e <;> cases e
    · exact s.settleProfile_walk _ _ ▸ (State.SameClocks.beginProbes _).walk
    · exact .inl rfl
  · cases e; exact .inl rfl
  · cases e; exact .inl rfl

theorem configurePort_walk {s t : State} {l : Lane} {q : ConfigurePortReq} (e : execConfigurePort l q s = .next t) :
    t.walk = s.walk ∨ t.walk = none := by
  unfold execConfigurePort at e
  obtain rfl | rfl := State.onRequest_cases e
  · exact .inl rfl
  split
  · exact .inl (by simp)
  · unfold State.acceptConfigure
    extract_lets told u v
    have begun : u.SameClocks v := .foldl _ (fun w p => .of_kept (by simp)) _ _
    have held : v.SameClocks (v.hold l) := .of_kept (by simp)
    have same : u.walk = s.walk := rfl
    exact same ▸ (begun.trans held).walk

theorem State.scanStep_partsFree (s : State) (w : ScanWalk) : (s.scanStep w).PartsFree := by
  unfold State.scanStep
  extract_lets found n written u v
  split
  · exact .of_walk (s := { s with walk := none }) (fun _ _ _ _ h => nomatch h) (.inr (by simp [State.finishScan]))
  · split
    · exact State.partsFree_of_scan rfl
    · exact .of_walk (s := { s with walk := none }) (fun _ _ _ _ h => nomatch h) (.inr (by simp [State.finishScan]))

/-! ## The commands -/

theorem setLane_partsFree {s t : State} {l : Lane} {q : SetLaneReq} (a : s.PartsFree) (e : execSetLane l q s = .next t) :
    t.PartsFree := by
  unfold execSetLane at e
  obtain rfl | rfl := State.onRequest_cases e
  · exact a
  · split
    · exact a.of_walk (.inl (by simp))
    · rename_i parts ok
      intro l' parts' target w walk mem
      cases walk
      exact checkSetLane_window ok mem

theorem scan_partsFree {s t : State} {l : Lane} {first : Option ScanStart} {b : Bool} (a : s.PartsFree)
    (e : execScan l first b s = .next t) : t.PartsFree := by
  unfold execScan at e
  obtain rfl | rfl := State.onRequest_cases e
  · exact a
  · split
    · exact a.of_walk (.inl (by simp))
    · exact State.partsFree_of_scan rfl

theorem scanClassRead_partsFree {s t : State} (a : s.PartsFree) (e : execScanClassRead s = .next t) : t.PartsFree := by
  unfold execScanClassRead at e
  split at e <;> cases e
  · exact s.scanStep_partsFree _
  · exact a
  · exact a

/-- What is left of a SET_LANE once a part has been taken is still free of the supervising lane's window. -/
theorem State.afterPart_partsFree (s : State) {l : Lane} {p : LanePart} {rest : List LanePart}
    (a : ∀ target w, LanePart.window target w ∈ p :: rest → target ≠ 0) : (s.afterPart l rest).PartsFree := by
  unfold State.afterPart
  split
  · exact .of_walk (s := { s with walk := none }) (fun _ _ _ _ h => nomatch h) (.inr (by simp))
  · intro l' parts target w walk mem
    cases walk
    exact a target w (List.mem_cons_of_mem _ mem)

theorem setLanePart_partsFree {s t : State} (a : s.PartsFree) (e : execSetLanePart s = .next t) : t.PartsFree := by
  unfold execSetLanePart at e
  split at e <;> cases e
  · rename_i walk
    exact (s.takePart _).afterPart_partsFree fun target w => a _ _ target w walk
  all_goals exact a

theorem State.setTriggerSetting_staysFree (s : State) (x : TriggerSetting) : s.StaysFree (s.setTriggerSetting x) := by
  rw [setTriggerSetting_eq]
  exact .of_units rfl

/-- A part that is no window of the supervising lane leaves that lane free. -/
theorem State.takePart_staysFree (s : State) {p : LanePart} (a : ∀ target w, p = .window target w → target ≠ 0) :
    s.StaysFree (s.takePart p) := by
  cases p with
  | window target w =>
    intro free
    have other : (0 : Lane) ≠ target := (a target w rfl).symm
    simpa [State.takePart, State.setUnit, Table.get_set, other] using free
  | interval target ms => exact .of_units rfl
  | triggers xs => exact .foldl _ xs (fun u x _ => u.setTriggerSetting_staysFree x) s

theorem State.afterPart_staysFree (s : State) (l : Lane) (rest : List LanePart) : s.StaysFree (s.afterPart l rest) := by
  unfold State.afterPart
  split
  · have moved : s.StaysFree { s with walk := none } := .of_units rfl
    exact moved.trans (State.Calm.refl _).answer.staysFree
  · exact .of_units rfl

theorem setLanePart_staysFree {s t : State} (a : s.PartsFree) (e : execSetLanePart s = .next t) : s.StaysFree t := by
  unfold execSetLanePart at e
  split at e <;> cases e
  · rename_i l p rest walk
    have part : s.StaysFree (s.takePart p) :=
      s.takePart_staysFree fun target w h => a l (p :: rest) target w walk (h ▸ List.mem_cons_self ..)
    exact part.trans (State.afterPart_staysFree _ l rest)
  all_goals exact id

theorem exec_partsFree {c : Instr} {s t : State} (a : s.PartsFree) (e : exec c s = .next t) : t.PartsFree := by
  by_cases k : Instr.resetsClocks c = false
  · exact a.of_walk (exec_sameClocks k e).walk
  · cases c with
    | powerOn => cases e; exact a.of_walk (.inr rfl)
    | benchReset => cases e; exact a.of_walk (.inr rfl)
    | profileReadDone n f => exact a.of_walk (profileReadDone_walk e)
    | configurePort l q => exact a.of_walk (configurePort_walk e)
    | scan l first b => exact scan_partsFree a e
    | scanClassRead => exact scanClassRead_partsFree a e
    | setLane l q => exact setLane_partsFree a e
    | setLanePart => exact setLanePart_partsFree a e
    | _ => exact absurd rfl k

theorem exec_supervisorFree (c : Instr) (s t : State) (a : s.supervisorFree) (e : exec c s = .next t) : t.supervisorFree := by
  rw [State.supervisorFree_iff] at a ⊢
  obtain ⟨free, parts⟩ := a
  refine ⟨?_, exec_partsFree parts e⟩
  by_cases k : c = .setLanePart
  · subst k
    exact setLanePart_staysFree parts e free
  · exact exec_staysFree k e free

theorem State.tick_supervisorFree (s : State) (a : s.supervisorFree) : s.tick.supervisorFree := by
  unfold State.tick
  simp only
  split <;> exact a

/-- Settles O60: a following port is set only where its leader leads, and the window of the supervising lane is never set. -/
theorem everyStepKeepsLeadersAndTheSupervisor : Obligations.EveryStepKeepsLeadersAndTheSupervisor :=
  ⟨step_keeps (fun _ _ a => a) State.tick_followSound exec_followSound,
    step_keeps (fun _ _ a => a) State.tick_supervisorFree exec_supervisorFree⟩

end Sys2Proof.Machine
end

section
/-!
SUPPORT. The part while it is STARTING (R43, R187): no message is on its way and no unit walks, so only the window, the flash,
the heads and the trigger lines have events, and these leave the part quiet or make it READY. Once READY it stays READY until
it is reset.
-/

namespace Sys2Proof.Machine

/-! ## Operations on a quiet part -/

/-- A port with no exchange but one of start-up and no CONFIGURE_PORT in progress. -/
def PortRec.Resting (r : PortRec) : Prop := (∀ x, r.exchange = some x → x.purpose = .startUp) ∧ r.job = none

namespace State.Quiet

theorem resting {s : State} (q : s.Quiet) (p : Port) : (s.ports.get p).Resting := ⟨q.exchanges p, q.jobs p⟩

theorem setPort {s : State} (q : s.Quiet) {p : Port} {r : PortRec} (h : r.Resting) : (s.setPort p r).Quiet :=
  { q with
    exchanges := by
      intro k x
      simp only [State.setPort, Table.get_set]
      split
      · exact h.1 x
      · exact q.exchanges k x
    jobs := by
      intro k
      simp only [State.setPort, Table.get_set]
      split
      · exact h.2
      · exact q.jobs k }

/-- A port that keeps its exchange and its CONFIGURE_PORT. -/
theorem setPort_of_same {s : State} (q : s.Quiet) {p : Port} {r : PortRec} (exchange : r.exchange = (s.ports.get p).exchange)
    (job : r.job = (s.ports.get p).job) : (s.setPort p r).Quiet :=
  q.setPort ⟨fun x h => q.exchanges p x (exchange ▸ h), job.trans (q.jobs p)⟩

theorem setUnit {s : State} (q : s.Quiet) {l : Lane} {u : RequestUnit} (h : u.state = (s.units.get l).state) :
    (s.setUnit l u).Quiet :=
  { q with
    units := by
      intro k
      simp only [State.setUnit, Table.get_set]
      split
      · exact h.trans (q.units l)
      · exact q.units k }

theorem send {s : State} (q : s.Quiet) (x : Sent) : (s.send x).Quiet := { q with }

theorem writeCauses {s : State} (q : s.Quiet) (l : Lane) (a b : BitVec 9) : (s.writeCauses l a b).Quiet := by
  unfold State.writeCauses
  simp only
  split
  · exact State.Quiet.send (q.setUnit (by rfl)) _
  · exact q.setUnit (by rfl)

theorem setCause {s : State} (q : s.Quiet) (l : Lane) (c : Cause) : (s.setCause l c).Quiet := q.writeCauses l _ _

theorem raisePort {s : State} (q : s.Quiet) (p : Port) (add : PortCauses → PortCauses) : (s.raisePort p add).Quiet :=
  State.Quiet.setCause (q.setPort_of_same (by rfl) (by rfl)) _ _

theorem headFault {s : State} (q : s.Quiet) (p : Port) (c : FaultCondition) (n : Nat) : (s.headFault p c n).Quiet := by
  have faulted : (s.setPort p ((s.ports.get p).faulted c n s.sceneTime)).Quiet := by
    refine q.setPort ⟨fun x h => ?_, q.jobs p⟩
    obtain ⟨y, e, rfl⟩ := Option.map_eq_some_iff.1 h
    exact q.exchanges p y e
  unfold State.headFault
  simp only
  split
  · exact faulted.raisePort _ _
  · exact faulted

theorem endExchange {s : State} (q : s.Quiet) (p : Port) : (s.endExchange p).Quiet :=
  q.setPort ⟨fun _ h => (nomatch h), q.jobs p⟩

theorem beginExchange {s : State} (q : s.Quiet) (p : Port) (k : ExchangeKind) (b : Bool) :
    (s.beginExchange p k .startUp b).Quiet := by
  unfold State.beginExchange
  simp only
  have begun : ∀ x : Exchange, x.purpose = .startUp →
      (s.setPort p { s.ports.get p with tag := (s.ports.get p).tag + 1, exchange := some x }).Quiet := by
    intro x h
    refine q.setPort ⟨fun y e => ?_, q.jobs p⟩
    cases e
    exact h
  cases k
  · exact (begun _ rfl).send _
  · exact (begun _ rfl).send _

theorem foldl {α : Type} (f : State → α → State) (h : ∀ (s : State) a, s.Quiet → (f s a).Quiet) (xs : List α) {s : State}
    (q : s.Quiet) : (xs.foldl f s).Quiet := by
  induction xs generalizing s with
  | nil => exact q
  | cons a xs ih => exact ih (h s a q)

theorem beginProbes {s : State} (q : s.Quiet) : s.beginProbes.Quiet :=
  .foldl _ (fun _ p a => a.beginExchange p .probe false) _ { q with }

/-- No request is handed over while every unit is idle. -/
theorem onRequest {s t : State} (q : s.Quiet) {l : Lane} {r : Request} {g : Header → Bool} {f : State → State}
    (e : s.onRequest l r g f = .next t) : t.Quiet := by
  have idle : s.handed l = none := by simp [State.handed, q.units l]
  rw [State.onRequest, idle] at e
  cases e
  exact q

/-- No message is on its way. -/
theorem onMessage {s t : State} (q : s.Quiet) {m : Message} {f : State → State} (e : s.onMessage m f = .next t) : t.Quiet := by
  rw [State.onMessage_absent (by simp [q.inFlight])] at e
  cases e
  exact q

theorem inPhase {s : State} (q : s.Quiet) (l : Lane) (p : Phase) : s.inPhase l p = false := by
  simp [State.inPhase, q.units l]

theorem awaitsTransfer {s : State} (q : s.Quiet) (l : Lane) (p : Phase) (n : Nat) : s.awaitsTransfer l p n = false := by
  simp [State.awaitsTransfer, q.units l]

theorem recordAt {s : State} (q : s.Quiet) (h : EmitterHandle) : s.recordAt h = none := by
  simp [State.recordAt, q.entries h.slot]

theorem clipAt {s : State} (q : s.Quiet) (h : ClipHandle) : s.clipAt h = none := by
  simp [State.clipAt, q.clips h.slot]

theorem slotView {s : State} (q : s.Quiet) (n : SlotNo) : s.slotView n = none := by
  simp [State.slotView, (q.slots n).1]

theorem liveRead {s : State} (q : s.Quiet) (n : SlotNo) (k : Nat) (b : Bool) : s.liveRead n k b = none := by
  simp [State.liveRead, (q.slots n).2]

theorem currentCopy {s : State} (q : s.Quiet) (k : Nat) : s.currentCopy k = none := by simp [State.currentCopy, q.copy]

/-- The end of an exchange of start-up: the part becomes READY or stays quiet. -/
theorem settleStartUp {s : State} (q : s.Quiet) (a : Answer) : (s.settlePort .startUp a).startingQuiet := by
  unfold State.settlePort State.checkReady
  simp only
  split
  · exact fun busy => absurd rfl busy
  · exact fun _ => q

end State.Quiet

/-! ## Commands while the part is STARTING -/

theorem State.Quiet.starting {s : State} (q : s.Quiet) : s.startingQuiet := fun _ => q

theorem State.Quiet.probeAnswered {s : State} (q : s.Quiet) (p : Port) {x : Exchange} (purpose : x.purpose = .startUp)
    (i : BitVec 32) (n : Nat) : (s.probeAnswered p x i n).startingQuiet := by
  unfold State.probeAnswered
  extract_lets u t
  have answered : u.Quiet := (q.endExchange p).setPort_of_same (by rfl) (by rfl)
  rw [purpose]
  split
  · exact (answered.headFault p _ _).settleStartUp _
  · exact (answered.beginExchange p _ _).starting

theorem State.Quiet.rateAcknowledged {s : State} (q : s.Quiet) (p : Port) {x : Exchange} (purpose : x.purpose = .startUp) :
    (s.rateAcknowledged p x).startingQuiet := by
  unfold State.rateAcknowledged
  extract_lets t
  rw [purpose]
  refine State.Quiet.settleStartUp ?_ _
  refine (q.endExchange p).setPort_of_same ?_ ?_
  all_goals
    unfold PortRec.acknowledged
    rw [purpose]
    simp only
    split <;> rfl

theorem State.Quiet.probeTimedOut {s : State} (q : s.Quiet) (p : Port) {x : Exchange} (purpose : x.purpose = .startUp) :
    (s.probeTimedOut p x).startingQuiet := by
  unfold State.probeTimedOut
  extract_lets lost u v
  have removed : u.Quiet := (q.endExchange p).setPort_of_same (by rfl) (by rfl)
  rw [purpose]
  refine State.Quiet.settleStartUp ?_ _
  simp only [v]
  split
  · exact removed.raisePort _ _
  · exact removed

theorem State.Quiet.rateTimedOut {s : State} (q : s.Quiet) (p : Port) {x : Exchange} (purpose : x.purpose = .startUp) :
    (s.rateTimedOut p x).startingQuiet := by
  unfold State.rateTimedOut
  simp only [purpose]
  exact ((q.endExchange p).headFault p _ _).settleStartUp _

theorem State.awaited_exchange {s : State} {p : Port} {tag : BitVec 8} {x : Exchange} (h : s.awaited p tag = some x) :
    (s.ports.get p).exchange = some x := by
  unfold State.awaited at h
  split at h
  · split at h <;> cases h
    assumption
  · cases h

theorem State.Quiet.head {s t : State} (q : s.Quiet) {p : Port} {tag : BitVec 8} {i : BitVec 32} {n : Nat}
    (e : execProbeAnswer p tag i n s = .next t ∨ execSetRateAck p tag s = .next t ∨ execHeadExchangeTimeout p s = .next t) :
    t.startingQuiet := by
  obtain e | e | e := e
  · unfold execProbeAnswer at e
    split at e
    · cases e; exact q.starting
    · rename_i x awaited
      have purpose := q.exchanges p x (State.awaited_exchange awaited)
      split at e <;> cases e
      · exact q.probeAnswered p purpose i n
      · exact (q.headFault p _ _).starting
  · unfold execSetRateAck at e
    split at e
    · cases e; exact q.starting
    · rename_i x awaited
      have purpose := q.exchanges p x (State.awaited_exchange awaited)
      split at e <;> cases e
      · exact q.rateAcknowledged p purpose
      · exact (q.headFault p _ _).starting
  · unfold execHeadExchangeTimeout at e
    split at e
    · cases e; exact q.starting
    · rename_i x exchange
      have purpose := q.exchanges p x exchange
      split at e
      · split at e <;> cases e
        · exact q.probeTimedOut p purpose
        · exact q.rateTimedOut p purpose
      · cases e; exact q.starting

theorem State.Quiet.headStatusMessage {s t : State} (q : s.Quiet) {p : Port} {b : Bool} {c : StatusCondition}
    {d : BitVec 16} (e : execHeadStatusMessage p b c d s = .next t) : t.Quiet := by
  unfold execHeadStatusMessage at e
  split at e
  · cases e; exact q
  · split at e <;> cases e
    · exact q
    all_goals exact q.headFault p _ _

theorem State.Quiet.windowCommand {s t : State} (q : s.Quiet) (busy : s.phase ≠ .ready) {l : Lane}
    (e : execWindowStart l s = .next t ∨ execWindowResume l s = .next t) : t.Quiet := by
  obtain e | e := e
  · simp only [execWindowStart, busy, if_false] at e
    cases e
    exact q.setCause _ _
  · simp only [execWindowResume, q.units l] at e
    cases e
    exact q.setCause _ _

theorem State.Quiet.writeEnds {s t : State} (q : s.Quiet) {l : Lane} {n : Nat}
    (e : execWriteDone l n s = .next t ∨ execWriteFailed l n s = .next t) : t.Quiet := by
  obtain e | e := e
  · unfold execWriteDone at e
    split at e
    · cases e; exact q
    · simp only [q.awaitsTransfer] at e
      cases e
      exact { q with }
  · unfold execWriteFailed at e
    split at e
    · cases e; exact q
    · simp only [q.awaitsTransfer] at e
      cases e
      exact { q with }

/-! ## The flash -/

theorem State.Quiet.applySection {s t : State} (q : s.Quiet) {kind spare : Nat} {body : List Byte}
    (e : s.applySection kind spare body = some t) : t.Quiet := by
  unfold State.applySection at e
  split at e
  · cases e
  · split at e
    · obtain ⟨xs, -, e⟩ := Option.bind_eq_some_iff.1 e
      unfold State.portsSection at e
      simp only at e
      split at e <;> cases e
      exact .foldl State.profilePort (fun u x a => a.setPort_of_same (by rfl) (by rfl)) xs q
    · obtain ⟨xs, -, rfl⟩ := Option.map_eq_some_iff.1 e
      exact .foldl State.profileTriggerSet (fun u x a => { a with }) xs q
    · obtain ⟨xs, -, rfl⟩ := Option.map_eq_some_iff.1 e
      refine .foldl State.profileLane (fun u x a => ?_) xs q
      have windowSet := a.setUnit (l := x.lane) (u := { u.units.get x.lane with window := x.window }) rfl
      exact { windowSet with }
    · cases e

theorem State.Quiet.takeSections (n : Nat) (bytes : List Byte) {s : State} (q : s.Quiet) :
    (State.takeSections n bytes s).Quiet := by
  induction n generalizing bytes s with
  | zero => exact q
  | succ n ih =>
    unfold State.takeSections
    simp only
    split
    · exact { q with }
    · refine ih _ ?_
      split
      · rename_i e
        exact q.applySection e
      · exact { q with }

theorem State.Quiet.aside {s : State} (q : s.Quiet) : s.profileAside.Quiet := { q with }

theorem State.Quiet.settleProfile {s : State} (q : s.Quiet) (n : Nat) (f : FlashRead) : (s.settleProfile n f).Quiet := by
  unfold State.settleProfile
  split
  · exact q.aside
  · split
    · exact q.takeSections _ _
    · exact q.aside

theorem State.Quiet.profileReadDone {s t : State} (q : s.Quiet) {n : Nat} {f : FlashRead}
    (e : execProfileReadDone n f s = .next t) : t.Quiet := by
  unfold execProfileReadDone at e
  split at e
  · split at e <;> cases e
    · unfold State.takeProfileHeader
      split
      · exact q.aside.beginProbes
      · split
        · exact { q with }
        · exact q.aside.beginProbes
    · exact q
  · split at e <;> cases e
    · exact (q.settleProfile _ _).beginProbes
    · exact q
  · cases e; exact q
  · cases e; exact q

theorem State.Quiet.profileReadTimeout {s t : State} (q : s.Quiet) (e : execProfileReadTimeout s = .next t) : t.Quiet := by
  unfold execProfileReadTimeout at e
  split at e
  · split at e <;> cases e
    · exact q
    · exact q.aside.beginProbes
  · split at e <;> cases e
    · exact q
    · exact q.aside.beginProbes
  · cases e; exact q
  · cases e; exact q

/-! ## Reset -/

theorem reset_quiet : State.reset.Quiet := by
  constructor
  case units => decide
  case exchanges => simp [State.reset, PortRec.initial]
  case jobs => simp [State.reset, PortRec.initial]
  all_goals simp [State.reset, Entry.initial, StreamSlot.free, ClipSlot.initial]

theorem powerOn_quiet {s t : State} (e : execPowerOn s = .next t) : t.Quiet := by
  cases e
  exact { reset_quiet with }

theorem benchReset_quiet {s t : State} (e : execBenchReset s = .next t) : t.Quiet := by
  cases e
  exact { reset_quiet with
    units := by intro l; fin_cases l <;> rfl
    exchanges := by simp [PortRec.afterReset, PortRec.initial]
    jobs := by simp [PortRec.afterReset, PortRec.initial] }

/-! ## A part that is READY -/

theorem State.settlePort_ready {s : State} (ready : s.phase = .ready) (f : ExchangeFor) (a : Answer) :
    (s.settlePort f a).phase = .ready := by
  unfold State.settlePort
  cases f with
  | startUp =>
    unfold State.checkReady
    simp only
    split
    · rfl
    · exact ready
  | restart l => exact (State.Calm.refl s).completeHeld.phase.trans ready
  | configure l home => exact (State.Calm.refl s).settleConfigure.phase.trans ready

theorem head_ready {s t : State} (ready : s.phase = .ready) {p : Port} {tag : BitVec 8} {i : BitVec 32} {n : Nat}
    (e : execProbeAnswer p tag i n s = .next t ∨ execSetRateAck p tag s = .next t ∨ execHeadExchangeTimeout p s = .next t) :
    t.phase = .ready := by
  obtain calm | ⟨u, f, a, calm, rfl⟩ := head_calm e
  · exact calm.phase.trans ready
  · exact State.settlePort_ready (calm.phase.trans ready) f a

theorem State.foldl_phase {α : Type} (f : State → α → State) (h : ∀ (s : State) a, (f s a).phase = s.phase) (xs : List α)
    (s : State) : (xs.foldl f s).phase = s.phase := by
  induction xs generalizing s with
  | nil => rfl
  | cons a xs ih => exact (ih (f s a)).trans (h s a)

theorem setLanePart_phase {s t : State} (e : execSetLanePart s = .next t) : t.phase = s.phase := by
  have part (x : LanePart) : (s.takePart x).phase = s.phase := by
    cases x with
    | window target w => rfl
    | interval target ms => rfl
    | triggers xs => exact State.foldl_phase State.setTriggerSetting (fun u x => by rw [State.setTriggerSetting_eq]) xs s
  unfold execSetLanePart at e
  split at e <;> cases e
  · rename_i l x rest _
    have after : ((s.takePart x).afterPart l rest).phase = (s.takePart x).phase := by
      unfold State.afterPart
      split
      · exact (State.Calm.refl ({ s.takePart x with walk := none } : State)).answer.phase
      · rfl
    exact after.trans (part x)
  all_goals rfl

theorem State.jumpTo_phase (s : State) (time : BitVec 64) : (s.jumpTo time).phase = s.phase := by
  unfold State.jumpTo
  extract_lets d u
  have entries : s.Calm u := State.Calm.foldl _ (fun v i => (State.Calm.refl v).jumpEntry) _ _
  clear_value u
  exact entries.phase

/-- A part that is READY stays READY until it is reset. -/
theorem exec_ready {c : Instr} {s t : State} (ready : s.phase = .ready) (power : c ≠ .powerOn) (bench : c ≠ .benchReset)
    (e : exec c s = .next t) : t.phase = .ready := by
  by_cases stirs : Instr.stirs c = false
  · exact (exec_calm stirs e).phase.trans ready
  · cases c with
    | powerOn => exact absurd rfl power
    | benchReset => exact absurd rfl bench
    | setLanePart => exact (setLanePart_phase e).trans ready
    | sceneTimeReadLow b => cases b <;> cases e <;> exact ready
    | sceneTimeReadHigh =>
      dsimp only [exec, execSceneTimeReadHigh] at e
      split at e <;> cases e <;> exact ready
    | registerWrite n v =>
      dsimp only [exec, execRegisterWrite] at e
      split at e <;> cases e <;> exact ready
    | profileReadDone n f =>
      simp only [exec, execProfileReadDone, ready] at e
      cases e
      exact ready
    | profileReadTimeout =>
      simp only [exec, execProfileReadTimeout, ready] at e
      cases e
      exact ready
    | handOver =>
      dsimp only [exec, execHandOver] at e
      split at e <;> cases e
      · exact (s.handOver_calm _).phase.trans ready
      · exact ready
    | create l q b =>
      obtain calm | ⟨x, r, calm⟩ := create_takes e
      · exact calm.phase.trans ready
      · exact calm.phase.trans ready
    | defineFade l q =>
      obtain calm | ⟨i, p, calm⟩ := defineFade_takes e
      · exact calm.phase.trans ready
      · exact calm.phase.trans ready
    | defineClip l q =>
      obtain calm | ⟨-, i, calm⟩ := defineClip_takes e
      · exact calm.phase.trans ready
      · exact calm.phase.trans ready
    | setTime l x =>
      dsimp only [exec, execSetTime] at e
      obtain rfl | rfl := State.onRequest_cases e
      · exact ready
      obtain ⟨a, -, eq⟩ | ⟨y, -, eq⟩ := s.conclude_cases l (s.checkSetTime l) (s.setTimeEffect x)
      · exact eq ▸ (State.Calm.refl s).answer.phase.trans ready
      · exact eq ▸ (State.Calm.refl (s.jumpTo x)).answer.phase.trans ((s.jumpTo_phase x).trans ready)
    | grant =>
      obtain calm | ⟨u, n, h, rate, start, before, -, -, calm⟩ := grant_takes e
      · exact calm.phase.trans ready
      · exact calm.phase.trans (before.phase.trans ready)
    | probeAnswer p tag i n => exact head_ready ready (.inl e)
    | setRateAck p tag => exact head_ready (i := 0) (n := 0) ready (.inr (.inl e))
    | headExchangeTimeout p => exact head_ready (tag := 0) (i := 0) (n := 0) ready (.inr (.inr e))
    | copyHostReadDone n bs =>
      obtain calm | ⟨i, c, copied, -, -, calm⟩ := copyHostReadDone_writes e
      · exact calm.phase.trans ready
      · exact calm.phase.trans ready
    | _ => exact absurd rfl stirs

/-! ## Every command -/

/-- What a quiet part makes of a command: it stays quiet, or the last exchange of start-up has ended and it is READY. -/
theorem State.Quiet.exec {c : Instr} {s t : State} (q : s.Quiet) (busy : s.phase ≠ .ready) (e : exec c s = .next t) :
    t.startingQuiet := by
  cases c with
  | powerOn => exact (powerOn_quiet e).starting
  | benchReset => exact (benchReset_quiet e).starting
  | sceneFlush =>
    simp only [Machine.exec, execSceneFlush, busy, if_false] at e
    cases e; exact q.starting
  | windowStart l => exact (q.windowCommand busy (.inl e)).starting
  | windowResume l => exact (q.windowCommand busy (.inr e)).starting
  | windowAbort l =>
    simp [Machine.exec, execWindowAbort, q.inPhase, State.abortUnit, q.units] at e
    exact e ▸ q.starting
  | listCommandInvalid l v =>
    dsimp only [Machine.exec, execListCommandInvalid] at e
    split at e <;> cases e
    · exact q.starting
    · exact (q.setCause _ _).starting
  | causeSummaryWrite l v => cases e; exact (q.writeCauses _ _ _).starting
  | interruptEnableWrite l v => cases e; exact (q.writeCauses _ _ _).starting
  | sceneTimeReadLow b =>
    have q : t.Quiet := by cases b <;> cases e <;> exact { q with }
    exact q.starting
  | sceneTimeReadHigh =>
    dsimp only [Machine.exec, execSceneTimeReadHigh] at e
    have q : t.Quiet := by split at e <;> cases e <;> exact { q with }
    exact q.starting
  | registerWrite n v =>
    dsimp only [Machine.exec, execRegisterWrite] at e
    split at e <;> cases e
    · exact (q.setUnit (by rfl)).starting
    · exact q.starting
  | profileReadDone n f => exact (q.profileReadDone e).starting
  | profileReadTimeout => exact (q.profileReadTimeout e).starting
  | fetchHeaderDone l n h =>
    simp [Machine.exec, execFetchHeaderDone, q.awaitsTransfer] at e
    exact e ▸ q.starting
  | fetchRequestDone l n a =>
    simp [Machine.exec, execFetchRequestDone, q.awaitsTransfer] at e
    exact e ▸ q.starting
  | fetchReadFailed l n =>
    simp [Machine.exec, execFetchReadFailed, q.awaitsTransfer] at e
    exact e ▸ q.starting
  | resumeLinkReadDone l n a =>
    simp [Machine.exec, execResumeLinkReadDone, q.awaitsTransfer] at e
    exact e ▸ q.starting
  | handOver =>
    have idle : s.nextTurn = none := by simp [State.nextTurn, q.inPhase, List.find?_eq_none]
    simp only [Machine.exec, execHandOver, idle] at e
    cases e
    exact q.starting
  | heldRequestComplete l =>
    simp [Machine.exec, execHeldRequestComplete, q.inFlight] at e
    exact e ▸ q.starting
  | writeDone l n => exact (q.writeEnds (.inl e)).starting
  | writeFailed l n => exact (q.writeEnds (.inr e)).starting
  | scanClassRead =>
    simp [Machine.exec, execScanClassRead, q.walk] at e
    exact e ▸ q.starting
  | setLanePart =>
    simp [Machine.exec, execSetLanePart, q.walk] at e
    exact e ▸ q.starting
  | loadCopyEnd n b =>
    simp [Machine.exec, execLoadCopyEnd, q.currentCopy] at e
    exact e ▸ q.starting
  | copyHostReadDone n bs =>
    simp [Machine.exec, execCopyHostReadDone, q.currentCopy] at e
    exact e ▸ q.starting
  | startLeadExpiry x =>
    simp [Machine.exec, execStartLeadExpiry, State.dropLeads, q.inFlight] at e
    have same : t.Quiet := e ▸ { q with inFlight := rfl }
    exact same.starting
  | triggerLineChange x b =>
    simp only [Machine.exec, execTriggerLineChange, busy, if_false] at e
    have same : t.Quiet := by cases e; exact { q with }
    exact same.starting
  | triggerQualified x =>
    simp [Machine.exec, execTriggerQualified, State.qualify, busy] at e
    exact e ▸ q.starting
  | grant =>
    simp [Machine.exec, execGrant, State.grantable, State.queueHead, q.grantQueue] at e
    exact e ▸ q.starting
  | runReadDone n k o =>
    simp [Machine.exec, execRunReadDone, q.liveRead, State.countStray, State.strayRead, q.strayReads] at e
    exact e ▸ q.starting
  | demandReadDone n k o =>
    simp [Machine.exec, execDemandReadDone, q.liveRead, State.countStray, State.strayRead, q.strayReads] at e
    exact e ▸ q.starting
  | slotOutputSample n =>
    simp [Machine.exec, execSlotOutputSample, q.slotView] at e
    exact e ▸ q.starting
  | cuePulseEnd x =>
    simp [Machine.exec, execCuePulseEnd, q.cues] at e
    exact e ▸ q.starting
  | clipReferenceRelease c =>
    simp [Machine.exec, execClipReferenceRelease, q.clipAt] at e
    exact e ▸ q.starting
  | portJoin p h w => cases e; exact (q.setPort_of_same (by rfl) (by rfl)).starting
  | portWeight p h w => cases e; exact (q.setPort_of_same (by rfl) (by rfl)).starting
  | portLeave p h => cases e; exact (q.setPort_of_same (by rfl) (by rfl)).starting
  | reservationClaim p h b w => cases e; exact (q.setPort_of_same (by rfl) (by rfl)).starting
  | reservationRelease p h => cases e; exact (q.setPort_of_same (by rfl) (by rfl)).starting
  | portOutputSample p => cases e; exact (q.setPort_of_same (by rfl) (by rfl)).starting
  | probeAnswer p tag i n => exact q.head (.inl e)
  | setRateAck p tag => exact q.head (i := 0) (n := 0) (.inr (.inl e))
  | headExchangeTimeout p => exact q.head (tag := 0) (i := 0) (n := 0) (.inr (.inr e))
  | headStatusMessage p b c d => exact (q.headStatusMessage e).starting
  | spentExpiry | startTimeExpiry | stopPointExpiry | atApplyExpiry | nextFrameApplyExpiry | rampEndExpiry
  | fadeReplacementExpiry | outputChangeExpiry | triggerEdge | primedReport | endOfClipReport | cueCrossing | recoveredReport
  | failureReport | readCountMessage => exact (q.onMessage e).starting
  | _ =>
    dsimp only [Machine.exec, execNop, execCreate, execStart, execModify, execPause, execResume, execRetire,
      execQueryEmitter, execDefineFade, execRetireFade, execFlushLane, execDefineClip, execLoadClip, execRetireClip,
      execQueryClip, execConfigurePort, execRestartPort, execSetOutput, execQueryPort, execScan, execSetLane,
      execSetTime] at e
    exact (q.onRequest e).starting

theorem exec_startingQuiet (c : Instr) (s t : State) (a : s.startingQuiet) (e : exec c s = .next t) : t.startingQuiet := by
  by_cases ready : s.phase = .ready
  · by_cases power : c = .powerOn
    · subst power
      exact (powerOn_quiet e).starting
    by_cases bench : c = .benchReset
    · subst bench
      exact (benchReset_quiet e).starting
    exact fun busy => absurd (exec_ready ready power bench e) busy
  · exact (a ready).exec ready e

theorem State.tick_startingQuiet (s : State) (a : s.startingQuiet) : s.tick.startingQuiet := by
  unfold State.tick
  simp only
  split
  · rename_i ready
    exact fun busy => absurd ready busy
  · exact fun busy => { a busy with }

/-- Settles O59: while the part is STARTING nothing is handed over, on its way or due, and what has an event then leaves it
quiet. -/
theorem everyStepKeepsStartingQuiet : Obligations.EveryStepKeepsStartingQuiet :=
  step_keeps (fun _ _ a => fun busy => { a busy with }) State.tick_startingQuiet exec_startingQuiet

end Sys2Proof.Machine
end

section
/-!
SUPPORT. The queue and the clock, the resets, the causes, and the transfers that begin and fail (chapters 1, 9 and 10).
-/

namespace Sys2Proof.Machine

/-! ## The queue and the clock -/

/-- Settles O1: the queue's rest is what is left of it. -/
theorem stepRunsTheFrontCommand : Obligations.StepRunsTheFrontCommand := fun _ _ _ => rfl

theorem step_of_empty {s : State} (empty : s.pending = []) : step s = .next s.tick := by rw [step, empty]

/-- A path with a fade profile in force takes the next position of its curve. -/
theorem State.tickPath_fading {s : State} {p : Path} {x : FadeRef} {f : FadeProfile} {y : FadePos} (fade : p.vals.fade = some x)
    (profile : s.fadeAt x.profile = some f) (pos : p.pos = some y) : s.tickPath p = { p with pos := some (f.curve.advance y) } := by
  simp [State.tickPath, fade, profile, pos]

theorem State.tickPath_still {s : State} {p : Path} (still : p.pos = none ∨ ∀ x, p.vals.fade = some x → s.fadeAt x.profile = none) :
    s.tickPath p = p := by
  unfold State.tickPath
  split
  · rename_i x y fade pos
    obtain still | still := still
    · rw [still] at pos
      cases pos
    · rw [still x fade]
  · rfl

/-- Settles O2: a tick raises what is due and moves the fades on, with the profiles as they were. -/
theorem anEmptyQueueLetsAPeriodPass : Obligations.AnEmptyQueueLetsAPeriodPass := by
  intro s empty
  refine ⟨fun busy => ?_, fun ready => ⟨s.tick, s.tickPath, step_of_empty empty, ?_⟩⟩
  · rw [step_of_empty empty]
    simp [State.tick, busy]
  · refine ⟨?_, ?_, ?_, ?_, ?_, fun p x f y fade profile pos => State.tickPath_fading fade profile pos,
      fun p still => State.tickPath_still still, ?_⟩
    all_goals simp only [State.tick, ready, if_true]
    · rfl
    · rfl
    · refine List.filter_congr fun x _ => ?_
      rw [← decide_not]
      exact decide_eq_decide.2 Int.not_le
    · rfl
    · intro i
      simp only [State.tickFades, Table.get_map]
      rfl
    · rfl

/-! ## The resets -/

/-- Settles O3: the power-on values, one block after another. -/
theorem resetLeavesThePartStarting : Obligations.ResetLeavesThePartStarting := by
  refine ⟨rfl, rfl, rfl, rfl, rfl, rfl, rfl, rfl, by decide, ?_, ?_, ?_, ?_, ?_, rfl, rfl, rfl, rfl, rfl, rfl, ?_, ?_, ?_, rfl⟩
  · simp [State.reset]
  · simp [State.reset, Entry.initial]
  · simp [State.reset, FadeSlot.initial]
  · simp [State.reset, ClipSlot.initial]
  · simp [State.reset, StreamSlot.free]
  · simp [State.reset]
  · simp [State.reset, TriggerRec.initial]
  · simp [State.reset, PortRec.initial]

/-- Each unit after bench reset: the power-on values but for the list base and the interrupt enable. -/
theorem State.resetUnits_get (s : State) (l : Lane) :
    s.resetUnits.get l = { State.reset.units.get l with
      listBase := (s.units.get l).listBase, enable := (s.units.get l).enable } := by
  fin_cases l <;> rfl

/-- Settles O4: each block takes its power-on value, and BENCH_RESET keeps of the units, triggers and ports what it must. -/
theorem theResetsSetEveryBlock : Obligations.TheResetsSetEveryBlock := by
  refine ⟨fun s => ⟨_, rfl, fun x => ?_, rfl, rfl, rfl, rfl⟩, fun s => ⟨_, rfl, s.resetUnits_get, fun x => ?_, fun p => ?_, ?_⟩⟩
  · simp [State.reset, TriggerRec.initial]
  · simp [State.reset, TriggerRec.initial]
  · simp [State.reset, PortRec.afterReset, PortRec.initial]
  · exact ⟨fun _ => rfl, rfl, rfl, rfl⟩

theorem reset_memorySound : State.reset.memorySound := by
  refine ⟨?_, fun i c h => ?_⟩
  · simp [State.reset, Memory.wf]
  · simp [State.reset, ClipSlot.initial] at h

theorem reset_followSound : State.reset.followSound := by
  intro p k h
  simp [State.reset, PortRec.initial] at h

theorem reset_supervisorFree : State.reset.supervisorFree := ⟨rfl, fun _ _ _ _ h => nomatch h⟩

/-- Settles O55: no record, clip or held slot exists right after reset, and every port leads. -/
theorem resetHasTheInvariants : Obligations.ResetHasTheInvariants :=
  ⟨reset_memorySound, State.rateInUse_of_free rfl, generationsSound_of_initial rfl rfl rfl, reset_quiet.starting,
    reset_followSound, reset_supervisorFree⟩

/-! ## Causes -/

/-- Clearing causes never makes an interrupt condition. -/
theorem clearing_raises_nothing (a b c : BitVec 9) (quiet : a &&& b = 0) : a &&& c &&& b = 0 := by
  rw [BitVec.and_assoc, BitVec.and_comm c b, ← BitVec.and_assoc, quiet]
  exact BitVec.zero_and

theorem RequestUnit.interrupts_false (u : RequestUnit) : u.interrupts = false ↔ u.summary &&& u.enable = 0 := by
  simp [RequestUnit.interrupts]

/-- Settles O5: a write of causes sends the interrupt message where the condition passes from not holding to holding. -/
theorem causesAreSetClearedAndInterrupt : Obligations.CausesAreSetClearedAndInterrupt := by
  refine ⟨fun s l c => ⟨_, rfl, ?_⟩, fun s l v => ⟨_, rfl, ?_⟩, fun s l v => ⟨_, rfl, ?_⟩⟩
  · unfold State.setCause
    rw [State.writeCauses_eq]
    exact ⟨Table.get_set_self .., fun k ne => Table.get_set_ne _ _ _ _ ne, by simp [RequestUnit.interrupts], rfl⟩
  · rw [State.writeCauses_eq]
    refine ⟨Table.get_set_self .., fun k ne => Table.get_set_ne _ _ _ _ ne, ?_⟩
    have silent : ¬ ((s.units.get l).interrupts = false ∧
        ((s.units.get l).summary &&& ~~~(v.setWidth 9) &&& (s.units.get l).enable != 0) = true) := by
      rintro ⟨quiet, raised⟩
      rw [RequestUnit.interrupts_false] at quiet
      simp [clearing_raises_nothing _ _ _ quiet] at raised
    rw [if_neg silent]
  · rw [State.writeCauses_eq]
    refine ⟨Table.get_set_self .., fun k ne => Table.get_set_ne _ _ _ _ ne, ?_, rfl⟩
    simp [RequestUnit.interrupts_false]

/-! ## Transfers that begin and fail -/

theorem State.faultUnit_unit (s : State) (l : Lane) (d : UnitFault) :
    (s.faultUnit l d).units.get l = { s.units.get l with
      state := .faulted d, block := none, answer := none
      summary := (s.units.get l).summary ||| Cause.ruFaulted.bit } := by
  rw [State.faultUnit_eq]
  exact Table.get_set_self ..

theorem State.faultUnit_other (s : State) (l : Lane) (d : UnitFault) {k : Lane} (ne : k ≠ l) :
    (s.faultUnit l d).units.get k = s.units.get k := by
  rw [State.faultUnit_eq]
  exact Table.get_set_ne _ _ _ _ ne

/-- A unit that waits for a transfer takes its answer. -/
theorem State.awaitsTransfer_of {s : State} {l : Lane} {p : Phase} {n : Nat} (state : (s.units.get l).state = .active p)
    (tag : (s.units.get l).tag = n) : s.awaitsTransfer l p n = true := by
  simp [State.awaitsTransfer, state, tag]

/-- The state of a fetch that faults: the address is the current block, and the unit is FAULTED. -/
theorem State.beginFetch_faults {s : State} {l : Lane} {a : BitVec 64} {d : UnitFault}
    (e : s.beginFetch l a = (s.setUnit l { s.units.get l with current := a }).faultUnit l d) :
    (∀ k, k ≠ l → (s.beginFetch l a).units.get k = s.units.get k) ∧
    (s.beginFetch l a).units.get l = { s.units.get l with
      state := .faulted d, current := a, block := none, answer := none
      summary := (s.units.get l).summary ||| Cause.ruFaulted.bit } ∧
    s.beginFetch l a = { s with units := (s.beginFetch l a).units, sent := (s.beginFetch l a).sent } := by
  rw [e]
  refine ⟨fun k ne => ?_, ?_, ?_⟩
  · rw [State.faultUnit_other _ _ _ ne, State.setUnit_units, Table.get_set_ne _ _ _ _ ne]
  · rw [State.faultUnit_unit, State.setUnit_units, Table.get_set_self]
  · rw [State.faultUnit_eq]
    rfl

theorem State.beginFetch_unaligned {s : State} {l : Lane} {a : BitVec 64} (h : a.toNat % 16 ≠ 0) :
    s.beginFetch l a = (s.setUnit l { s.units.get l with current := a }).faultUnit l .alignment := by
  simp [State.beginFetch, h]

theorem State.beginFetch_outside {s : State} {l : Lane} {a : BitVec 64} (h : a.toNat % 16 = 0)
    (w : windowAllows (s.units.get l).window a.toNat 16 = false) :
    s.beginFetch l a = (s.setUnit l { s.units.get l with current := a }).faultUnit l .window := by
  simp [State.beginFetch, h, w]

/-- A fetch that begins: the header read is issued. -/
theorem State.beginFetch_reads {s : State} {l : Lane} {a : BitVec 64} (h : a.toNat % 16 = 0)
    (w : windowAllows (s.units.get l).window a.toNat 16 = true) :
    (∀ k, k ≠ l → (s.beginFetch l a).units.get k = s.units.get k) ∧
    (s.beginFetch l a).units.get l = { s.units.get l with
      state := .active .fetchHeader, current := a, block := none, answer := none, tag := s.nextTag } ∧
    s.beginFetch l a = { s with units := (s.beginFetch l a).units, nextTag := s.nextTag + 1 } := by
  have e : s.beginFetch l a = (s.setUnit l { s.units.get l with current := a }).beginRead l .fetchHeader none := by
    simp [State.beginFetch, h, w]
  rw [e, State.beginRead_eq]
  refine ⟨fun k ne => ?_, ?_, rfl⟩
  · simp [Table.get_set_ne _ _ _ _ ne]
  · simp

/-- The three ways in which a fetch begins, for a command that begins one. -/
theorem windowStart_fetches {s : State} {l : Lane} (ready : s.phase = .ready)
    (stands : (s.units.get l).state = .idle ∨ ∃ d, (s.units.get l).state = .faulted d) :
    exec (.windowStart l) s = .next (s.beginFetch l (s.units.get l).listBase) := by
  obtain stands | ⟨d, stands⟩ := stands <;> simp [exec, execWindowStart, ready, stands]

theorem resumeLinkReadDone_takes {s : State} {l : Lane} {n : Nat} (state : (s.units.get l).state = .active .readLink)
    (tag : (s.units.get l).tag = n) (a : Option (BitVec 64)) :
    exec (.resumeLinkReadDone l n a) s = .next (s.takeLink l a) := by
  simp [exec, execResumeLinkReadDone, State.awaitsTransfer_of state tag]

theorem State.takeLink_fetches {s : State} {l : Lane} {a : BitVec 64}
    (h : a.toNat % 16 ≠ 0 ∨ windowAllows (s.units.get l).window a.toNat 16 = true) :
    s.takeLink l (some a) = s.beginFetch l a := by
  unfold State.takeLink
  simp only
  split
  · rename_i inside
    obtain ⟨aligned, outside⟩ := inside
    obtain h | h := h
    · exact absurd aligned h
    · rw [h] at outside
      cases outside
  · rfl

theorem windowResume_reads {s : State} {l : Lane} (ready : s.phase = .ready) (state : (s.units.get l).state = .suspended) :
    exec (.windowResume l) s = .next (s.beginResume l) := by
  simp [exec, execWindowResume, ready, state]

/-- Settles O7: START fetches at the list base, RESUME reads the link of the suspended block and fetches there. -/
theorem startAndResumeBeginAFetch : Obligations.StartAndResumeBeginAFetch := by
  refine ⟨fun s l ready stands => ⟨_, windowStart_fetches ready stands, ?_⟩, fun s l => ⟨fun ready state inside => ?_,
    fun ready state outside => ?_, fun n state tag => ⟨?_, fun a unaligned => ?_, fun a aligned => ⟨fun outside => ?_,
    fun inside => ?_⟩⟩⟩⟩
  · refine ⟨fun k ne => ?_, fun unaligned => ?_, fun aligned outside => ?_, fun aligned inside => ?_⟩
    · by_cases aligned : (s.units.get l).listBase.toNat % 16 = 0
      · cases w : windowAllows (s.units.get l).window (s.units.get l).listBase.toNat 16 with
        | true => exact (State.beginFetch_reads aligned w).1 k ne
        | false => exact (State.beginFetch_faults (State.beginFetch_outside aligned w)).1 k ne
      · exact (State.beginFetch_faults (State.beginFetch_unaligned aligned)).1 k ne
    · exact (State.beginFetch_faults (State.beginFetch_unaligned unaligned)).2
    · exact (State.beginFetch_faults (State.beginFetch_outside aligned outside)).2
    · exact (State.beginFetch_reads aligned inside).2
  · refine ⟨_, windowResume_reads ready state, ?_⟩
    unfold State.beginResume
    rw [if_pos inside, State.beginRead_eq]
    exact ⟨fun k ne => Table.get_set_ne _ _ _ _ ne, Table.get_set_self .., rfl⟩
  · rw [windowResume_reads ready state]
    simp [State.beginResume, outside]
  · rw [resumeLinkReadDone_takes state tag]
    rfl
  · refine ⟨_, resumeLinkReadDone_takes state tag _, ?_⟩
    rw [State.takeLink_fetches (.inl unaligned)]
    exact State.beginFetch_faults (State.beginFetch_unaligned unaligned)
  · rw [resumeLinkReadDone_takes state tag]
    simp [State.takeLink, aligned, outside]
  · refine ⟨_, resumeLinkReadDone_takes state tag _, ?_⟩
    rw [State.takeLink_fetches (.inr inside)]
    exact State.beginFetch_reads aligned inside

end Sys2Proof.Machine
end

section
/-!
SUPPORT. The words of the control window and its writes (9.9, R169 to R171), and the transfers that fail (R176).
-/

namespace Sys2Proof.Machine

/-! ## The words of the window -/

/-- The word that a read shows at an offset in a lane's part of the window. -/
def RequestUnit.shown (u : RequestUnit) : Nat → BitVec 32
  | 0x00 => u.listBase.setWidth 32
  | 0x04 => (u.listBase >>> 32).setWidth 32
  | 0x0C => u.state.word
  | 0x10 => u.current.setWidth 32
  | 0x14 => (u.current >>> 32).setWidth 32
  | 0x18 => u.summary.setWidth 32
  | 0x1C => u.enable.setWidth 32
  | _ => 0

theorem State.windowWord_lane (s : State) (l : Lane) {k : Nat} (h : k < 0x40) :
    s.windowWord (0x100 + 0x40 * l.val + k) = (s.units.get l).shown k := by
  have low : 0x100 + 0x40 * l.val + k ≠ 0 ∧ 0x100 + 0x40 * l.val + k ≠ 4 := by omega
  have range : 0x100 ≤ 0x100 + 0x40 * l.val + k ∧ 0x100 + 0x40 * l.val + k < 0x200 := by omega
  have lane : (⟨(0x100 + 0x40 * l.val + k - 0x100) / 0x40, by omega⟩ : Lane) = l := Fin.ext (by simp only; omega)
  have rest : (0x100 + 0x40 * l.val + k - 0x100) % 0x40 = k := by omega
  unfold State.windowWord
  rw [if_neg low.1, if_neg low.2, dif_pos range]
  simp only [lane, rest]
  rfl

/-- Outside the lanes' parts only the identity and the start-up status show anything. -/
theorem State.windowWord_none (s : State) {n : Nat} (identity : n ≠ 0) (status : n ≠ 4) (outside : ¬ (0x100 ≤ n ∧ n < 0x200)) :
    s.windowWord n = 0 := by
  unfold State.windowWord
  rw [if_neg identity, if_neg status, dif_neg outside]

/-- The offsets of the fields in a lane's part of the window; what lies at any other reads 0. -/
theorem RequestUnit.shown_none (u : RequestUnit) {k : Nat} (h : k ∉ [0x00, 0x04, 0x0C, 0x10, 0x14, 0x18, 0x1C]) :
    u.shown k = 0 := by
  unfold RequestUnit.shown
  split
  case h_8 => rfl
  all_goals exact absurd (by decide) h

theorem joinHalves (a : BitVec 64) : (a >>> 32).setWidth 32 ++ a.setWidth 32 = a := by
  refine BitVec.eq_of_getLsbD_eq fun i h => ?_
  rw [BitVec.getLsbD_append]
  split
  · rename_i low
    simp [low]
  · rename_i high
    have top : i - 32 < 32 := by omega
    have whole : 32 + (i - 32) = i := by omega
    simp [top, whole]

theorem lowHalf (a b : BitVec 16) : (a ++ b).setWidth 16 = b := by
  refine BitVec.eq_of_getLsbD_eq fun i h => ?_
  rw [BitVec.getLsbD_setWidth, BitVec.getLsbD_append, if_pos h]
  simp [h]

theorem highHalf (a b : BitVec 16) : ((a ++ b) >>> 16).setWidth 16 = a := by
  refine BitVec.eq_of_getLsbD_eq fun i h => ?_
  have high : ¬ 16 + i < 16 := by omega
  rw [BitVec.getLsbD_setWidth, BitVec.getLsbD_ushiftRight, BitVec.getLsbD_append, if_neg high]
  simp [h]

theorem State.startUpStatus_lt (s : State) : s.startUpStatus.toNat < 2 ^ 3 := by
  unfold State.startUpStatus
  cases s.profileDefaults <;> cases s.profilePartial <;> split <;> decide

theorem State.startUpStatus_bits (s : State) :
    (s.startUpStatus.getLsbD 0 = true ↔ s.phase = .ready) ∧ s.startUpStatus.getLsbD 1 = s.profileDefaults ∧
      s.startUpStatus.getLsbD 2 = s.profilePartial := by
  unfold State.startUpStatus
  by_cases ready : s.phase = .ready
  · cases s.profileDefaults <;> cases s.profilePartial <;> simp [ready]
  · cases s.profileDefaults <;> cases s.profilePartial <;> simp [ready]

theorem State.startUpStatus_above (s : State) {k : Nat} (h : 3 ≤ k) : s.startUpStatus.getLsbD k = false :=
  Nat.testBit_lt_two_pow (s.startUpStatus_lt.trans_le (Nat.pow_le_pow_right (by decide) h))

/-! ## Writes to list bases -/

theorem listBaseLane_base (l : Lane) : listBaseLane (0x100 + 0x40 * l.val) = some l := by
  fin_cases l <;> rfl

theorem base_of_listBaseLane {n : Nat} {l : Lane} (h : listBaseLane n = some l) : n = 0x100 + 0x40 * l.val := by
  unfold listBaseLane at h
  repeat' split at h
  all_goals cases h
  all_goals assumption

/-- Settles O6: each field is shown at its offset, and each write that is no command of its own reaches a list base or nothing. -/
theorem theWindowStoresOrRefusesItsWrites : Obligations.TheWindowStoresOrRefusesItsWrites := by
  refine ⟨fun s => ⟨lowHalf _ _, highHalf _ _, s.startUpStatus_bits.1, s.startUpStatus_bits.2.1,
    s.startUpStatus_bits.2.2, fun k h => s.startUpStatus_above h, fun l base h => ?_, fun n other lanes => ?_⟩,
    fun s l => ⟨fun v invalid => ?_, fun busy => ?_, fun busy => ?_⟩, fun s n v _ => ⟨fun l base => ?_, fun other => ?_⟩⟩
  · subst h
    have word (k : Nat) (h : k < 0x40) := s.windowWord_lane l h
    refine ⟨?_, ?_, fun x mem state => ?_, word 0x18 (by decide), word 0x1C (by decide)⟩
    · have first : s.windowWord (0x100 + 0x40 * l.val) = (s.units.get l).shown 0 := word 0 (by decide)
      rw [word 4 (by decide), first]
      exact joinHalves _
    · rw [word 0x14 (by decide), word 0x10 (by decide)]
      exact joinHalves _
    · rw [word 0x0C (by decide)]
      simp only [RequestUnit.shown, state]
      fin_cases mem <;> rfl
  · simp only [List.mem_cons, not_or] at other
    by_cases range : 0x100 ≤ n ∧ n < 0x200
    · have split : n = 0x100 + 0x40 * ((n - 0x100) / 0x40) + (n - 0x100) % 0x40 := by omega
      have word := s.windowWord_lane ⟨(n - 0x100) / 0x40, by omega⟩ (Nat.mod_lt (n - 0x100) (show 0 < 0x40 by decide))
      rw [← split] at word
      rw [word]
      exact RequestUnit.shown_none _ fun mem => lanes ⟨(n - 0x100) / 0x40, by omega⟩ _ mem split
    · exact s.windowWord_none other.1 other.2.1 range
  · simp only [listValueInvalid, Bool.and_eq_true, bne_iff_ne] at invalid
    obtain ⟨⟨one, two⟩, three⟩ := invalid
    have other : ¬ (v = 1 ∨ v = 2 ∨ v = 3) := by
      rintro (h | h | h)
      exacts [one h, two h, three h]
    simp only [exec, execListCommandInvalid, if_neg other]
  · by_cases ready : s.phase = .ready
    · obtain busy | busy | ⟨p, busy⟩ := busy
      · exact absurd ready busy
      · simp [exec, execWindowStart, ready, busy]
      · simp [exec, execWindowStart, ready, busy]
    · simp [exec, execWindowStart, ready]
  · obtain busy | ⟨p, busy⟩ | ⟨d, busy⟩ := busy <;> simp [exec, execWindowResume, busy]
  · subst base
    refine ⟨s.setUnit l { s.units.get l with listBase := v }, ?_, Table.get_set_self .., fun k ne => Table.get_set_ne _ _ _ _ ne,
      rfl⟩
    simp only [exec, execRegisterWrite, listBaseLane_base]
  · have none : listBaseLane n = none := Option.eq_none_iff_forall_ne_some.2 fun l h => other l (base_of_listBaseLane h)
    simp only [exec, execRegisterWrite, none]

/-! ## Transfers that fail -/

theorem State.awaitsTransfer_iff (s : State) (l : Lane) (p : Phase) (n : Nat) :
    s.awaitsTransfer l p n = true ↔ (s.units.get l).state = .active p ∧ (s.units.get l).tag = n := by
  simp [State.awaitsTransfer]

theorem State.endWrite_eq (s : State) (w : HostWrite) (n : Nat) :
    s.endWrite w n = { s with
      writes := s.writes.erase w
      sent := s.sent ++ [Sent.resultWrite w.lane w.resultArea w.answer.result w.words,
        .statusWrite w.lane (w.block + 0x0C) w.answer.status w.words,
        .completionWrite w.lane (w.block + 0x0F) w.truncated].take n } := rfl

theorem writeFailed_ends {s : State} {l : Lane} {n : Nat} {w : HostWrite} (write : s.writeOf l n = some w) :
    exec (.writeFailed l n) s = .next (if s.awaitsTransfer l .writing n
      then (s.endWrite w (Config.writesMade n)).faultUnit l .linkWrite else s.endWrite w (Config.writesMade n)) := by
  simp only [exec, execWriteFailed, write]
  split <;> rfl

/-- Settles O8: the unit that waits for the failed transfer is FAULTED, and no other. -/
theorem aFailedTransferFaultsTheUnit : Obligations.AFailedTransferFaultsTheUnit := by
  refine ⟨fun s l d => ⟨_, rfl, fun k ne => s.faultUnit_other l d ne, s.faultUnit_unit l d, s.faultUnit_frame l d⟩,
    fun s l => ⟨fun reads => ?_, fun n w write => ⟨s.endWrite w (Config.writesMade n), Config.writesMade n,
      s.endWrite_eq w _, fun state tag => ?_, fun other => ?_⟩⟩⟩
  · obtain state | state | state := reads <;> simp [exec, execFetchReadFailed, State.awaitsTransfer, state]
  · rw [writeFailed_ends write, if_pos (State.awaitsTransfer_of state tag)]
  · have passes : ¬ s.awaitsTransfer l .writing n = true := by
      rw [State.awaitsTransfer_iff]
      exact not_and_or.2 other
    rw [writeFailed_ends write, if_neg passes]

end Sys2Proof.Machine
end

section
/-!
SUPPORT. A block through the engine: its form and the hand-over by rotation (R168, R173, R174), the answer and the completion
that act on its flags (R167, R175, R176).
-/

namespace Sys2Proof.Machine

/-! ## Reading a block (R173) -/

theorem fetchHeaderDone_takes {s : State} {l : Lane} (state : (s.units.get l).state = .active .fetchHeader) (h : Header) :
    exec (.fetchHeaderDone l (s.units.get l).tag h) s = .next (s.takeHeader l h) := by
  simp [exec, execFetchHeaderDone, State.awaitsTransfer, state]

theorem fetchRequestDone_takes {s : State} {l : Lane} (state : (s.units.get l).state = .active .fetchRequest)
    (a : Option Request) : exec (.fetchRequestDone l (s.units.get l).tag a) s = .next (s.takeArea l a) := by
  simp [exec, execFetchRequestDone, State.awaitsTransfer, state]

theorem lengthsOk_iff (h : Header) : h.lengthsOk = true ↔ h.reqLen.toNat ≤ 62 ∧ h.resLen.toNat ≤ 64 := by
  simp [Header.lengthsOk]

/-- A header outside the window faults the unit, one with good lengths reads the area, and one with bad lengths waits. -/
theorem State.takeHeader_cases (s : State) (l : Lane) (h : Header) :
    s.takeHeader l h = s.faultUnit l .window ∨ s.takeHeader l h = s.beginRead l .fetchRequest (some ⟨h, none⟩) ∨
      s.takeHeader l h = s.setUnit l { s.units.get l with state := .active .waitingTurn, block := some ⟨h, none⟩ } := by
  unfold State.takeHeader
  extract_lets u extent
  split
  · split
    · exact .inr (.inl rfl)
    · exact .inr (.inr rfl)
  · exact .inl rfl

theorem State.takeHeader_other (s : State) (l : Lane) (h : Header) {k : Lane} (ne : k ≠ l) :
    (s.takeHeader l h).units.get k = s.units.get k := by
  obtain e | e | e := s.takeHeader_cases l h
  · rw [e, s.faultUnit_other l _ ne]
  · rw [e]; exact Table.get_set_ne _ _ _ _ ne
  · rw [e]; exact Table.get_set_ne _ _ _ _ ne

/-- Settles O12: the extent of a block is judged when its header has been read. -/
theorem aReadBlockWaitsForItsTurn : Obligations.AReadBlockWaitsForItsTurn := by
  refine fun s l => ⟨fun h state => ⟨_, fetchHeaderDone_takes state h, fun k ne => s.takeHeader_other l h ne,
    fun req res inside => ?_, fun req res outside => ?_, fun long inside => ?_⟩, fun b a state block =>
    ⟨_, fetchRequestDone_takes state a, fun k ne => Table.get_set_ne _ _ _ _ ne, ?_, rfl⟩⟩
  · have ok := (lengthsOk_iff h).2 ⟨req, res⟩
    have e : s.takeHeader l h = s.beginRead l .fetchRequest (some ⟨h, none⟩) := by
      simp [State.takeHeader, ok, Header.extent, inside]
    rw [e, State.beginRead_eq]
    exact ⟨Table.get_set_self .., rfl⟩
  · have ok := (lengthsOk_iff h).2 ⟨req, res⟩
    simp [State.takeHeader, ok, Header.extent, outside]
  · have bad : h.lengthsOk = false := by
      rw [← Bool.not_eq_true, lengthsOk_iff]
      omega
    have e : s.takeHeader l h =
        s.setUnit l { s.units.get l with state := .active .waitingTurn, block := some ⟨h, none⟩ } := by
      simp [State.takeHeader, bad, inside]
    rw [e]
    exact ⟨Table.get_set_self .., rfl⟩
  · simp [State.takeArea, RequestUnit.header, block]

/-! ## The form of a block (R168) -/

theorem PathField.wellEncoded_iff (f : PathField) : f.wellEncoded = true ↔ f.Encoded := by
  have present : f.fadePresent.toNat ≤ 1 ↔ f.fadePresent = 0 ∨ f.fadePresent = 1 := by
    simp only [BitVec.toNat_eq]
    exact Nat.le_one_iff_eq_zero_or_eq_one
  simp only [PathField.wellEncoded, PathField.Encoded, Bool.and_eq_true, Bool.or_eq_true, decide_eq_true_eq, beq_iff_eq, present]
  constructor
  · rintro ⟨⟨kind, spare⟩, handle⟩
    refine ⟨kind, spare, fun absent => handle.resolve_left fun one => ?_⟩
    rw [absent] at one
    exact absurd one (by decide)
  · rintro ⟨kind, spare, handle⟩
    exact ⟨⟨kind, spare⟩, kind.symm.imp_right handle⟩

theorem StartField.wellEncoded_iff (f : StartField) : f.wellEncoded = true ↔ f.Encoded := by
  unfold StartField.wellEncoded StartField.given StartField.Encoded
  rw [bne_iff_ne]
  repeat' split
  all_goals simp_all

theorem Request.wellEncoded_iff (r : Request) : r.wellEncoded = true ↔ r.Encoded := by
  cases r with
  | create q =>
    simp only [Request.wellEncoded, Request.Encoded, Bool.and_eq_true, List.all_eq_true, PathField.wellEncoded_iff,
      StartField.wellEncoded_iff, decide_eq_true_eq, and_assoc]
  | start q => exact StartField.wellEncoded_iff q.start
  | modify q =>
    simp only [Request.wellEncoded, Request.Encoded, Bool.and_eq_true, List.all_eq_true, PathField.wellEncoded_iff,
      decide_eq_true_eq, and_assoc]
    cases q.paths <;> simp
  | _ => exact iff_of_true rfl trivial

/-- The flag bits above 4 are zero where the flag byte is below 32. -/
theorem flags_lt_iff (f : BitVec 8) : f.toNat < 32 ↔ ∀ i, 5 ≤ i → f.getLsbD i = false := by
  constructor
  · intro lt i le
    exact Nat.testBit_lt_two_pow (lt.trans_le (Nat.pow_le_pow_right (n := 2) (by decide) le))
  · intro zero
    exact Nat.lt_pow_two_of_testBit (n := 5) _ fun i le => zero i le

theorem Block.formOk_iff (b : Block) : b.formOk = true ↔
    b.header.kind.toNat ≤ 21 ∧ b.header.reqLen.toNat ≤ 62 ∧ b.header.resLen.toNat ≤ 64 ∧
      ¬(b.header.suspend = true ∧ b.header.stop = true) ∧ (∀ i, 5 ≤ i → b.header.flags.getLsbD i = false) ∧
      ∃ r, b.area = some r ∧ r.kind = b.header.kind ∧ r.bytesNeeded ≤ 8 * b.header.reqLen.toNat ∧ r.Encoded := by
  unfold Block.formOk
  rw [← flags_lt_iff]
  cases b.area with
  | none => simp
  | some r =>
    simp only [Bool.and_eq_true, decide_eq_true_eq, lengthsOk_iff, Bool.not_eq_true', Bool.and_eq_false_iff, beq_iff_eq,
      Request.wellEncoded_iff, Option.some.injEq, exists_eq_left', and_assoc, not_and, Bool.not_eq_true]
    cases b.header.suspend <;> simp

/-! ## The rotation (R174) -/

/-- How far a lane stands behind the pointer in the rotation. -/
def turnsAfter (pointer l : Lane) : Nat := (l.val + 3 - pointer.val) % 4

theorem rotation_split (p l : Lane) :
    rotation p = (rotation p).take (turnsAfter p l) ++ l :: (rotation p).drop (turnsAfter p l + 1) ∧
      ∀ k ∈ (rotation p).take (turnsAfter p l), turnsAfter p k < turnsAfter p l := by
  revert p l
  decide

/-- The lane that waits and stands nearest behind the pointer has the next turn. -/
theorem State.nextTurn_eq {s : State} {l : Lane} (free : ∀ k, (s.units.get k).state ≠ .active .handed)
    (waits : (s.units.get l).state = .active .waitingTurn)
    (first : ∀ k, (s.units.get k).state = .active .waitingTurn → turnsAfter s.pointer l ≤ turnsAfter s.pointer k) :
    s.nextTurn = some l := by
  have engine : ¬ ((List.finRange 4).any fun k => s.inPhase k .handed) = true := by
    simp [State.inPhase, free]
  obtain ⟨split, nearer⟩ := rotation_split s.pointer l
  unfold State.nextTurn
  rw [if_neg engine, List.find?_eq_some_iff_append]
  refine ⟨by simp [State.inPhase, waits], _, _, split, fun k mem => ?_⟩
  have passed : (s.units.get k).state ≠ .active .waitingTurn := fun h => absurd (first k h) (Nat.not_le.2 (nearer k mem))
  simp [State.inPhase, passed]

/-- Settles O13: the nearest waiting block is handed over if its form is good, and answered if not. -/
theorem theRotationHandsOver : Obligations.TheRotationHandsOver := by
  refine ⟨Block.formOk_iff, fun r e => ⟨Nat.le_add_right .., bytesNeeded_le r, ?_, ?_, ?_, ?_, ?_⟩,
    fun s l b free waits block first => ?_⟩
  · rintro rfl; rfl
  · rintro q rfl; rfl
  · rintro t rfl; rfl
  · rintro (rfl | rfl | rfl | rfl | rfl | rfl) <;> rfl
  · rintro n (rfl | rfl | rfl) <;> rfl
  · have turn : exec .handOver s = .next (s.handOver l) := by
      simp only [exec, execHandOver, State.nextTurn_eq free waits first]
    refine ⟨fun good => ⟨_, turn, ?_⟩, fun bad => ?_⟩
    · simp only [State.handOver, block, good, if_true]
      exact ⟨rfl, fun k ne => Table.get_set_ne _ _ _ _ ne, Table.get_set_self .., rfl⟩
    · rw [turn]
      simp [State.handOver, block, bad, Answer.refuse]

/-! ## Answers (R167, R175, R178) -/

/-- The completion that stands first for its lane is the one that is taken. -/
theorem heldRequestComplete_takes {s : State} {l : Lane} {a : Answer} {n : Nat} {before after : List Message}
    (queue : s.inFlight = before ++ .heldDone l a n :: after) (none : ∀ m ∈ before, m.isHeldDone l = false) :
    exec (.heldRequestComplete l) s = .next (({ s with inFlight := before ++ after } : State).takeHeldDone l a) := by
  have found : s.inFlight.find? (fun m => m.isHeldDone l) = some (.heldDone l a n) := by
    rw [List.find?_eq_some_iff_append]
    exact ⟨by simp [Message.isHeldDone], before, after, queue, fun m mem => by simp [none m mem]⟩
  have absent : Message.heldDone l a n ∉ before := fun mem => by simpa [Message.isHeldDone] using none _ mem
  have rest : s.inFlight.erase (.heldDone l a n) = before ++ after := by
    rw [queue, List.erase_append_right _ absent, List.erase_cons_head]
  simp only [exec, execHeldRequestComplete, found]
  rw [State.onMessage_taken (by rw [queue]; simp), rest]

/-- Settles O14: a block is answered with as many whole words as its result area holds. -/
theorem aBlockIsAnswered : Obligations.ABlockIsAnswered := by
  refine ⟨fun s l b a block => ?_, fun s l a n before after queue none => ⟨fun held => ?_, fun other => ?_⟩,
    fun s l handed => ?_⟩
  · have header : (s.units.get l).header = b.header := by simp [RequestUnit.header, block]
    refine ⟨_, _, rfl, rfl, ?_⟩
    unfold State.answer
    rw [State.beginWrite_eq]
    refine ⟨fun k ne => Table.get_set_ne _ _ _ _ ne, Table.get_set_self .., ?_, rfl⟩
    have truncated : truncates b.header (a.fullWords b.header) =
        decide (b.header.resLen.toNat < a.fullWords b.header ∧ b.header.kind ≠ 18) := by
      simp [truncates, Bool.decide_and, bne, beq_eq_decide]
    simp only [header, RequestUnit.resultArea, truncated]
  · rw [heldRequestComplete_takes queue none]
    simp [State.takeHeldDone, State.inPhase, held]
  · rw [heldRequestComplete_takes queue none]
    simp [State.takeHeldDone, State.inPhase, other]
  · dsimp only [exec, execNop]
    rw [State.onRequest_handed handed]
    rfl

/-! ## The flags of a completed block (R176) -/

/-- The state after BLOCK_NOTIFY, where the block's NOTIFY is set. -/
def State.notified (s : State) (l : Lane) (h : Header) : State := if h.notify then s.setCause l .blockNotify else s

theorem State.actOnFlags_eq (s : State) (l : Lane) (h : Header) : s.actOnFlags l h =
    if h.stop then ((s.notified l h).moveUnit l .idle).setCause l .ruIdle
    else if h.suspend then ((s.notified l h).moveUnit l .suspended).setCause l .ruSuspended
    else (s.notified l h).beginFetch l h.link := rfl

/-! ## What acts on one unit alone -/

/-- From `s` to `t` nothing has changed but the unit of one lane, the transfer number, and that lane's interrupt messages. -/
structure State.ActsOn (l : Lane) (s t : State) : Prop where
  others : ∀ k, k ≠ l → t.units.get k = s.units.get k
  sent : ∃ messages, t.sent = s.sent ++ messages ∧ ∀ m ∈ messages, m = .interrupt l
  frame : t = { s with units := t.units, nextTag := t.nextTag, sent := t.sent }

namespace State.ActsOn

theorem refl (l : Lane) (s : State) : State.ActsOn l s s := ⟨fun _ _ => rfl, ⟨[], by simp⟩, rfl⟩

theorem trans {l : Lane} {s t u : State} (a : State.ActsOn l s t) (b : State.ActsOn l t u) : State.ActsOn l s u where
  others k ne := (b.others k ne).trans (a.others k ne)
  sent := by
    obtain ⟨ms, eq, all⟩ := a.sent
    obtain ⟨ns, eq', all'⟩ := b.sent
    refine ⟨ms ++ ns, by rw [eq', eq, List.append_assoc], fun m mem => ?_⟩
    exact (List.mem_append.1 mem).elim (all m) (all' m)
  frame := b.frame.trans (by rw [a.frame])

theorem setUnit (l : Lane) (s : State) (u : RequestUnit) : State.ActsOn l s (s.setUnit l u) :=
  ⟨fun _ ne => Table.get_set_ne _ _ _ _ ne, ⟨[], by simp⟩, rfl⟩

theorem setCause (l : Lane) (s : State) (c : Cause) : State.ActsOn l s (s.setCause l c) := by
  unfold State.setCause
  rw [State.writeCauses_eq]
  refine ⟨fun k ne => Table.get_set_ne _ _ _ _ ne, ?_, rfl⟩
  simp only
  split
  · exact ⟨[.interrupt l], rfl, fun m mem => List.mem_singleton.1 mem⟩
  · exact ⟨[], by simp⟩

theorem moveUnit (l : Lane) (s : State) (x : UnitState) : State.ActsOn l s (s.moveUnit l x) := setUnit l s _

theorem faultUnit (l : Lane) (s : State) (d : UnitFault) : State.ActsOn l s (s.faultUnit l d) :=
  (moveUnit l s _).trans (setCause l _ _)

theorem beginFetch (l : Lane) (s : State) (a : BitVec 64) : State.ActsOn l s (s.beginFetch l a) := by
  unfold State.beginFetch
  refine (setUnit l s { s.units.get l with current := a }).trans ?_
  simp only
  repeat' split
  · exact faultUnit l _ _
  · exact ⟨fun k ne => Table.get_set_ne _ _ _ _ ne, ⟨[], by simp [State.beginRead_eq]⟩, rfl⟩
  · exact faultUnit l _ _

theorem notified (l : Lane) (s : State) (h : Header) : State.ActsOn l s (s.notified l h) := by
  unfold State.notified
  split
  · exact setCause l s _
  · exact refl l s

theorem actOnFlags (l : Lane) (s : State) (h : Header) : State.ActsOn l s (s.actOnFlags l h) := by
  rw [State.actOnFlags_eq]
  refine (notified l s h).trans ?_
  repeat' split
  · exact (moveUnit l _ _).trans (setCause l _ _)
  · exact (moveUnit l _ _).trans (setCause l _ _)
  · exact beginFetch l _ _

end State.ActsOn

/-! ## The unit of a completed block -/

theorem State.notified_unit (s : State) (l : Lane) (h : Header) :
    (s.notified l h).units.get l = { s.units.get l with
      summary := if h.notify then (s.units.get l).summary ||| Cause.blockNotify.bit else (s.units.get l).summary } := by
  unfold State.notified
  split
  · simp
  · rfl

theorem State.notified_nextTag (s : State) (l : Lane) (h : Header) : (s.notified l h).nextTag = s.nextTag := by
  unfold State.notified
  split
  · rw [State.setCause_eq]
  · rfl

theorem writeDone_acts {s : State} {l : Lane} {b : Block} {w : HostWrite} (state : (s.units.get l).state = .active .writing)
    (block : (s.units.get l).block = some b) (write : s.writeOf l (s.units.get l).tag = some w) :
    exec (.writeDone l (s.units.get l).tag) s = .next ((s.endWrite w 3).actOnFlags l b.header) := by
  have header : (s.units.get l).header = b.header := by simp [RequestUnit.header, block]
  simp only [exec, execWriteDone, write, State.awaitsTransfer_of state rfl, if_true, header]

/-- Settles O15: the three writes stand in host memory before the unit acts on its block's flags. -/
theorem aCompletedBlockActsOnItsFlags : Obligations.ACompletedBlockActsOnItsFlags := by
  refine ⟨fun s l b w state block write => ?_, fun s l n w write other => ?_⟩
  · have acts := State.ActsOn.actOnFlags l (s.endWrite w 3) b.header
    obtain ⟨messages, sent, all⟩ := acts.sent
    refine ⟨_, _, messages, writeDone_acts state block write, sent, all, rfl, acts.others, ?_, fun stop => ?_,
      fun stop suspend => ?_, fun stop suspend aligned inside => ?_⟩
    · exact acts.frame
    · rw [State.actOnFlags_eq, if_pos stop]
      simp [State.moveUnit, State.notified_unit, State.endWrite]
    · have on : ¬ b.header.stop = true := by simp [stop]
      rw [State.actOnFlags_eq, if_neg on, if_pos suspend]
      simp [State.moveUnit, State.notified_unit, State.endWrite]
    · have on : ¬ b.header.stop = true := by simp [stop]
      have goes : ¬ b.header.suspend = true := by simp [suspend]
      rw [State.actOnFlags_eq, if_neg on, if_neg goes]
      have allowed : windowAllows (((s.endWrite w 3).notified l b.header).units.get l).window b.header.link.toNat 16 = true := by
        rw [State.notified_unit]
        exact inside
      obtain ⟨-, unit, -⟩ := State.beginFetch_reads aligned allowed
      rw [unit, State.notified_unit, State.notified_nextTag]
      rfl
  · have passes : ¬ s.awaitsTransfer l .writing n = true := by
      rw [State.awaitsTransfer_iff]
      exact not_and_or.2 other
    simp only [exec, execWriteDone, write, if_neg passes]
    rfl

end Sys2Proof.Machine
end

section
/-!
SUPPORT. What a request that has been handed over does: its checks refuse it, or its effect is answered (R174, R178).
-/

namespace Sys2Proof.Machine

theorem exec_create_handed {s : State} {l : Lane} {q : CreateReq} {late : Bool}
    (handed : s.Handed l (.create q) (fun h => h.lateOk == late)) :
    exec (.create l q late) s = .next (s.conclude l (s.checkCreate l q late) (s.createEffect l q)) := by
  dsimp only [exec, execCreate]
  exact State.onRequest_handed handed

theorem exec_start_handed {s : State} {l : Lane} {q : StartReq} {late : Bool}
    (handed : s.Handed l (.start q) (fun h => h.lateOk == late)) :
    exec (.start l q late) s = .next (s.conclude l (s.checkStart l q late) s.startEffect) := by
  dsimp only [exec, execStart]
  exact State.onRequest_handed handed

theorem exec_modify_handed {s : State} {l : Lane} {q : ModifyReq}
    (handed : s.Handed l (.modify q) anyFlag) :
    exec (.modify l q) s = .next (s.conclude l (s.checkModify l q) s.modifyEffect) := by
  dsimp only [exec, execModify]
  exact State.onRequest_handed handed

theorem exec_pause_handed {s : State} {l : Lane} {raw : RawHandle}
    (handed : s.Handed l (.pause raw) anyFlag) :
    exec (.pause l raw) s = .next (s.conclude l (s.checkPlaying l raw .onAir) s.pauseEffect) := by
  dsimp only [exec, execPause]
  exact State.onRequest_handed handed

theorem exec_resume_handed {s : State} {l : Lane} {raw : RawHandle}
    (handed : s.Handed l (.resume raw) anyFlag) :
    exec (.resume l raw) s = .next (s.conclude l (s.checkPlaying l raw .paused) s.resumeEffect) := by
  dsimp only [exec, execResume]
  exact State.onRequest_handed handed

theorem exec_queryEmitter_handed {s : State} {l : Lane} {raw : RawHandle} {clear : Bool}
    (handed : s.Handed l (.queryEmitter raw) (fun h => h.clear == clear)) :
    exec (.queryEmitter l raw clear) s = .next (s.conclude l (s.findEmitter l raw) (s.queryEmitterEffect clear)) := by
  dsimp only [exec, execQueryEmitter]
  exact State.onRequest_handed handed

theorem exec_defineFade_handed {s : State} {l : Lane} {q : DefineFadeReq}
    (handed : s.Handed l (.defineFade q) anyFlag) :
    exec (.defineFade l q) s = .next (s.conclude l (s.checkDefineFade l q) (s.defineFadeEffect l)) := by
  dsimp only [exec, execDefineFade]
  exact State.onRequest_handed handed

theorem exec_retireFade_handed {s : State} {l : Lane} {raw : RawHandle}
    (handed : s.Handed l (.retireFade raw) anyFlag) :
    exec (.retireFade l raw) s = .next (s.conclude l (s.checkRetireFade l raw) s.retireFadeEffect) := by
  dsimp only [exec, execRetireFade]
  exact State.onRequest_handed handed

theorem exec_flushLane_handed {s : State} {l : Lane} {b : BitVec 8}
    (handed : s.Handed l (.flushLane b) anyFlag) :
    exec (.flushLane l b) s = .next (s.conclude l (checkFlush l b) s.flushEffect) := by
  dsimp only [exec, execFlushLane]
  exact State.onRequest_handed handed

theorem exec_defineClip_handed {s : State} {l : Lane} {q : DefineClipReq}
    (handed : s.Handed l (.defineClip q) anyFlag) :
    exec (.defineClip l q) s = .next (s.conclude l (s.checkDefineClip q) (s.defineClipEffect l q)) := by
  dsimp only [exec, execDefineClip]
  exact State.onRequest_handed handed

theorem exec_retireClip_handed {s : State} {l : Lane} {raw : RawHandle}
    (handed : s.Handed l (.retireClip raw) anyFlag) :
    exec (.retireClip l raw) s = .next (s.conclude l (s.checkRetireClip l raw) s.retireClipEffect) := by
  dsimp only [exec, execRetireClip]
  exact State.onRequest_handed handed

theorem exec_queryClip_handed {s : State} {l : Lane} {raw : RawHandle} {clear : Bool}
    (handed : s.Handed l (.queryClip raw) (fun h => h.clear == clear)) :
    exec (.queryClip l raw clear) s = .next (s.conclude l (s.checkQueryClip l raw) (s.queryClipEffect clear)) := by
  dsimp only [exec, execQueryClip]
  exact State.onRequest_handed handed

theorem exec_setOutput_handed {s : State} {l : Lane} {q : SetOutputReq}
    (handed : s.Handed l (.setOutput q) anyFlag) :
    exec (.setOutput l q) s = .next (s.conclude l (s.checkSetOutput l q) (s.setOutputEffect q)) := by
  dsimp only [exec, execSetOutput]
  exact State.onRequest_handed handed

theorem exec_queryPort_handed {s : State} {l : Lane} {b : BitVec 8} {clear : Bool}
    (handed : s.Handed l (.queryPort b) (fun h => h.clear == clear)) :
    exec (.queryPort l b clear) s = .next (s.conclude l (s.findPort l b) (s.queryPortEffect clear)) := by
  dsimp only [exec, execQueryPort]
  exact State.onRequest_handed handed

theorem exec_setTime_handed {s : State} {l : Lane} {x : BitVec 64}
    (handed : s.Handed l (.setTime x) anyFlag) :
    exec (.setTime l x) s = .next (s.conclude l (s.checkSetTime l) (s.setTimeEffect x)) := by
  dsimp only [exec, execSetTime]
  exact State.onRequest_handed handed

theorem exec_loadClip_refused {s : State} {l : Lane} {q : LoadClipReq} {a : Answer}
    (handed : s.Handed l (.loadClip q) anyFlag) (checks : s.checkLoadClip l q = .error a) :
    exec (.loadClip l q) s = .next (s.answer l a) := by
  dsimp only [exec, execLoadClip]
  rw [State.onRequest_handed handed, checks]

theorem exec_loadClip_accepted {s : State} {l : Lane} {q : LoadClipReq} {x : ClipHandle × Clip}
    (handed : s.Handed l (.loadClip q) anyFlag) (checks : s.checkLoadClip l q = .ok x) :
    exec (.loadClip l q) s = .next (s.acceptLoad l q x.1 x.2) := by
  dsimp only [exec, execLoadClip]
  rw [State.onRequest_handed handed, checks]

theorem exec_configurePort_refused {s : State} {l : Lane} {q : ConfigurePortReq} {a : Answer}
    (handed : s.Handed l (.configurePort q) anyFlag) (checks : s.checkConfigure l q = .error a) :
    exec (.configurePort l q) s = .next (s.answer l a) := by
  dsimp only [exec, execConfigurePort]
  rw [State.onRequest_handed handed, checks]

theorem exec_configurePort_accepted {s : State} {l : Lane} {q : ConfigurePortReq} {x : ConfigureFound}
    (handed : s.Handed l (.configurePort q) anyFlag) (checks : s.checkConfigure l q = .ok x) :
    exec (.configurePort l q) s = .next (s.acceptConfigure l x) := by
  dsimp only [exec, execConfigurePort]
  rw [State.onRequest_handed handed, checks]

theorem exec_restartPort_refused {s : State} {l : Lane} {b : BitVec 8} {a : Answer}
    (handed : s.Handed l (.restartPort b) anyFlag) (checks : s.checkRestart l b = .error a) :
    exec (.restartPort l b) s = .next (s.answer l a) := by
  dsimp only [exec, execRestartPort]
  rw [State.onRequest_handed handed, checks]

theorem exec_restartPort_accepted {s : State} {l : Lane} {b : BitVec 8} {x : Port}
    (handed : s.Handed l (.restartPort b) anyFlag) (checks : s.checkRestart l b = .ok x) :
    exec (.restartPort l b) s = .next ((s.beginExchange x .probe (.restart l) false).hold l) := by
  dsimp only [exec, execRestartPort]
  rw [State.onRequest_handed handed, checks]

theorem exec_scan_refused {s : State} {l : Lane} {first : Option ScanStart} {clear : Bool} {a : Answer}
    (handed : s.Handed l (.scan first) (fun h => h.clear == clear)) (checks : checkScanStart first = .error a) :
    exec (.scan l first clear) s = .next (s.answer l a) := by
  dsimp only [exec, execScan]
  rw [State.onRequest_handed handed, checks]

theorem exec_scan_accepted {s : State} {l : Lane} {first : Option ScanStart} {clear : Bool} {x : ScanClass × Nat}
    (handed : s.Handed l (.scan first) (fun h => h.clear == clear)) (checks : checkScanStart first = .ok x) :
    exec (.scan l first clear) s = .next (s.beginScan l clear x) := by
  dsimp only [exec, execScan]
  rw [State.onRequest_handed handed, checks]

theorem exec_setLane_refused {s : State} {l : Lane} {q : SetLaneReq} {a : Answer}
    (handed : s.Handed l (.setLane q) anyFlag) (checks : checkSetLane l q = .error a) :
    exec (.setLane l q) s = .next (s.answer l a) := by
  dsimp only [exec, execSetLane]
  rw [State.onRequest_handed handed, checks]

theorem exec_setLane_accepted {s : State} {l : Lane} {q : SetLaneReq} {x : List LanePart}
    (handed : s.Handed l (.setLane q) anyFlag) (checks : checkSetLane l q = .ok x) :
    exec (.setLane l q) s = .next ({ s with walk := some (.setLane l x) }) := by
  dsimp only [exec, execSetLane]
  rw [State.onRequest_handed handed, checks]

/-! ## Refusals -/

theorem exec_refused {α : Type} {s : State} {c : Instr} {l : Lane} {checks : Checked α} {effect : α → State × Answer}
    {a : Answer} (e : exec c s = .next (s.conclude l checks effect)) (refused : checks = .error a) :
    exec c s = .next (s.answer l a) := by
  rw [e, State.conclude_error refused]

theorem exec_accepted {α : Type} {s : State} {c : Instr} {l : Lane} {checks : Checked α} {effect : α → State × Answer}
    {x : α} (e : exec c s = .next (s.conclude l checks effect)) (accepted : checks = .ok x) :
    exec c s = .next ((effect x).1.answer l (effect x).2) := by
  rw [e, State.conclude_ok accepted]

/-! ### The checks of an emitter handle, in their order (R8, R17, R178) -/

theorem State.findEmitter_range {s : State} {l : Lane} {raw : RawHandle} (h : 96 ≤ raw.slot.toNat) :
    s.findEmitter l raw = .error (.refuse .range) := by
  have none : raw.emitter = none := dif_neg (Nat.not_lt.2 h)
  simp [State.findEmitter, want, none, bind, Except.bind]

theorem State.findEmitter_stale {s : State} {l : Lane} {raw : RawHandle} {h : EmitterHandle} (names : raw.emitter = some h)
    (none : s.recordAt h = none) : s.findEmitter l raw = .error (.refuse .staleHandle) := by
  simp [State.findEmitter, want, names, none, bind, Except.bind]

theorem State.findEmitter_denied {s : State} {l : Lane} {raw : RawHandle} {h : EmitterHandle} {r : Record}
    (names : raw.emitter = some h) (record : s.recordAt h = some r) (lane : laneMay l r.lane = false) :
    s.findEmitter l raw = .error (.refuse .laneDenied) := by
  simp [State.findEmitter, want, need, names, record, lane, bind, Except.bind]

theorem State.checkPlaying_error {s : State} {l : Lane} {raw : RawHandle} {a : Answer} (e : s.findEmitter l raw = .error a)
    (x : EmState) : s.checkPlaying l raw x = .error a := by
  simp [State.checkPlaying, e, bind, Except.bind]

theorem State.checkPlaying_wrong {s : State} {l : Lane} {raw : RawHandle} {h : EmitterHandle} {r : Record}
    (e : s.findEmitter l raw = .ok (h, r)) {x : EmState} (other : r.state ≠ x) :
    s.checkPlaying l raw x = .error (.refuse .wrongState) := by
  have no : (r.state == x) = false := beq_eq_false_iff_ne.2 other
  simp [State.checkPlaying, need, e, no, bind, Except.bind]

theorem laneMay_true {l k : Lane} (h : l = 0 ∨ l = k) : laneMay l k = true := (laneMay_iff l k).2 h

theorem laneMay_false {l k : Lane} (zero : l ≠ 0) (other : l ≠ k) : laneMay l k = false := by
  rw [← Bool.not_eq_true, laneMay_iff]
  exact fun h => h.elim zero other

/-- Where the emitter handle is refused, each of the three requests that name only an emitter is. -/
theorem exec_emitter_refused {s : State} {l : Lane} {raw : RawHandle} {clear : Bool} {c : Instr} {flag : Header → Bool}
    {q : Request}
    (request : (c, q) = (.pause l raw, .pause raw) ∨ (c, q) = (.resume l raw, .resume raw) ∨
      (c, q) = (.queryEmitter l raw clear, .queryEmitter raw))
    (flags : flag = (if q = .queryEmitter raw then fun h => h.clear == clear else anyFlag)) (handed : s.Handed l q flag)
    {a : Answer} (refused : s.findEmitter l raw = .error a) : exec c s = .next (s.answer l a) := by
  subst flags
  obtain request | request | request := request <;> cases request
  · exact exec_refused (exec_pause_handed handed) (State.checkPlaying_error refused _)
  · exact exec_refused (exec_resume_handed handed) (State.checkPlaying_error refused _)
  · rw [if_pos rfl] at handed
    exact exec_refused (exec_queryEmitter_handed handed) refused

/-- Settles O16: the checks come before the effect, and the first that fails gives the answer. -/
theorem aRefusalChangesNothing : Obligations.ARefusalChangesNothing := by
  refine ⟨fun s l a => ⟨?_, ?_, ?_, ?_, ?_, ?_, ?_, ?_, ?_, ?_, ?_, ?_, ?_, ?_, ?_, ?_, ?_, ?_, ?_, ?_, ?_⟩,
    fun s l raw clear c flag q request flags handed => ⟨fun range => ?_, fun h names => ⟨fun none => ?_, fun r record =>
      ⟨fun zero other => ?_, fun may => ⟨fun pause state => ?_, fun resume state => ?_⟩⟩⟩⟩⟩
  · exact fun q late handed => exec_refused (exec_create_handed handed)
  · exact fun q late handed => exec_refused (exec_start_handed handed)
  · exact fun q handed => exec_refused (exec_modify_handed handed)
  · exact fun e handed => exec_refused (exec_pause_handed handed)
  · exact fun e handed => exec_refused (exec_resume_handed handed)
  · exact fun q handed => exec_refused (exec_retire_handed handed)
  · exact fun e clear handed => exec_refused (exec_queryEmitter_handed handed)
  · exact fun q handed => exec_refused (exec_defineFade_handed handed)
  · exact fun f handed => exec_refused (exec_retireFade_handed handed)
  · exact fun b handed => exec_refused (exec_flushLane_handed handed)
  · exact fun q handed => exec_refused (exec_defineClip_handed handed)
  · exact fun q handed => exec_loadClip_refused handed
  · exact fun c handed => exec_refused (exec_retireClip_handed handed)
  · exact fun c clear handed => exec_refused (exec_queryClip_handed handed)
  · exact fun q handed => exec_configurePort_refused handed
  · exact fun p handed => exec_restartPort_refused handed
  · exact fun q handed => exec_refused (exec_setOutput_handed handed)
  · exact fun p clear handed => exec_refused (exec_queryPort_handed handed)
  · exact fun x clear handed => exec_scan_refused handed
  · exact fun q handed => exec_setLane_refused handed
  · exact fun t handed => exec_refused (exec_setTime_handed handed)
  · exact exec_emitter_refused request flags handed (State.findEmitter_range range)
  · exact exec_emitter_refused request flags handed (State.findEmitter_stale names none)
  · exact exec_emitter_refused request flags handed (State.findEmitter_denied names record (laneMay_false zero other))
  · have found := State.findEmitter_ok names record (laneMay_true may)
    subst pause flags
    obtain request | request | request := request <;> cases request
    exact exec_refused (exec_pause_handed handed) (State.checkPlaying_wrong found state)
  · have found := State.findEmitter_ok names record (laneMay_true may)
    subst resume flags
    obtain request | request | request := request <;> cases request
    exact exec_refused (exec_resume_handed handed) (State.checkPlaying_wrong found state)

end Sys2Proof.Machine
end

section
/-!
SUPPORT. WINDOW_ABORT (R139, R164, R172): the end of a lane's load and of its held port request, and the load that the engine
takes next.
-/

namespace Sys2Proof.Machine

/-! ## The load queue -/

/-- A lane without a load has none in the queue and none in the engine. -/
theorem State.findLoad_none {s : State} {l : Lane} (h : s.findLoad (fun x => x.lane == l) = none) :
    (∀ x ∈ s.loadQueue, x.lane ≠ l) ∧ ∀ x, s.copy = some x → x.load.lane ≠ l := by
  unfold State.findLoad at h
  split at h
  · rename_i x copy
    split at h
    · cases h
    · rename_i other
      rw [Option.map_eq_none_iff, List.find?_eq_none] at h
      refine ⟨fun y mem => by simpa using h y mem, fun y hy => ?_⟩
      rw [copy] at hy
      cases hy
      simpa using other
  · rename_i copy
    rw [Option.map_eq_none_iff, List.find?_eq_none] at h
    refine ⟨fun y mem => by simpa using h y mem, fun y hy => ?_⟩
    rw [copy] at hy
    cases hy

/-- The end of a lane's load takes it out of the queue and the engine; the clips apart, nothing else changes. -/
theorem State.abortLoad_eq (s : State) (l : Lane) :
    s.abortLoad l = { s with
      clips := (s.abortLoad l).clips
      loadQueue := s.loadQueue.filter fun y => y.lane != l
      copy := s.copy.filter fun y => y.load.lane != l } := by
  unfold State.abortLoad
  split
  · rw [State.leaveLoading_frame]
    rfl
  · rename_i none
    obtain ⟨queue, copy⟩ := State.findLoad_none none
    have sameQueue : s.loadQueue.filter (fun y => y.lane != l) = s.loadQueue :=
      List.filter_eq_self.2 fun y mem => by simpa using queue y mem
    have sameCopy : s.copy.filter (fun y => y.load.lane != l) = s.copy := by
      cases h : s.copy with
      | none => rfl
      | some x => simp [Option.filter, copy x h]
    rw [sameQueue, sameCopy]

/-- The clip of a lane's load is DEFINED again. -/
theorem State.abortLoad_clipAt {s : State} {l : Lane} {x : Load} {n : Nat} {c : Clip}
    (load : s.findLoad (fun x => x.lane == l) = some (x, n)) (clip : s.clipAt x.clip = some c) (loading : c.state = .loading) :
    (s.abortLoad l).clipAt x.clip = some { c with state := .defined, computedCrc := none } := by
  have dropped : (s.dropLoad fun y => y.lane == l).clipAt x.clip = some c := clip
  simp only [State.abortLoad, load]
  rw [State.leaveLoading_loading dropped loading]
  exact State.clipAt_putClip dropped _

/-- The end of a lane's load changes only the slot of its clip. -/
theorem State.abortLoad_otherClips {s : State} {l : Lane} {i : ClipNo}
    (other : ∀ x n, s.findLoad (fun x => x.lane == l) = some (x, n) → x.clip.slot ≠ i) :
    (s.abortLoad l).clips.get i = s.clips.get i := by
  unfold State.abortLoad
  split
  · rename_i x n load
    unfold State.leaveLoading
    split
    · split
      · exact Table.get_set_ne _ _ _ _ (other x n load).symm
      · rfl
    · rfl
  · rfl

theorem State.leaveLoading_clips {s t : State} (clips : t.clips = s.clips) (h : ClipHandle) (x : ClipState)
    (crc : Option (BitVec 32)) : (t.leaveLoading h x crc).clips = (s.leaveLoading h x crc).clips := by
  have clip : t.clipAt h = s.clipAt h := by rw [State.clipAt, clips]; rfl
  unfold State.leaveLoading
  rw [clip]
  split
  · split
    · simp only [State.putClip, State.setClip, clips]
    · exact clips
  · exact clips

/-- Which clip the end of a load changes depends on the loads and the clips alone. -/
theorem State.abortLoad_clips {s t : State} (clips : t.clips = s.clips) (queue : t.loadQueue = s.loadQueue)
    (copy : t.copy = s.copy) (l : Lane) : (t.abortLoad l).clips = (s.abortLoad l).clips := by
  have load : t.findLoad (fun x => x.lane == l) = s.findLoad (fun x => x.lane == l) := by
    rw [State.findLoad, copy, queue]
    rfl
  unfold State.abortLoad
  rw [load]
  split
  · exact State.leaveLoading_clips (s := s.dropLoad _) (t := t.dropLoad _) clips _ _ _
  · exact clips

/-! ## The abort of a HELD unit -/

/-- What the abort of a HELD unit does before the engine takes the next load. -/
theorem State.abortUnit_held {s : State} {l : Lane} (held : (s.units.get l).state = .active .held) :
    ∃ w, s.AbortedWrite l s.nextTag w ∧ s.abortUnit l = { s with
      units := s.units.set l { s.units.get l with state := .idle, block := none, answer := none }
      writes := s.writes ++ [w]
      nextTag := s.nextTag + 1
      clips := (s.abortLoad l).clips
      loadQueue := s.loadQueue.filter fun y => y.lane != l
      copy := s.copy.filter fun y => y.load.lane != l
      ports := s.ports.map fun r => r.dropHeld l
      inFlight := s.inFlight.filter fun m => !m.isHeldDone l } := by
  obtain ⟨w, aborted, issued⟩ := s.abortedWrite_issued l
  refine ⟨w, aborted, ?_⟩
  have e : s.abortUnit l = ((s.writeAborted l).endHeld l).moveUnit l .idle := by simp only [State.abortUnit, held]
  have clips : ((s.writeAborted l).abortLoad l).clips = (s.abortLoad l).clips :=
    State.abortLoad_clips (by rw [issued]) (by rw [issued]) (by rw [issued]) l
  rw [e, State.endHeld, State.abortLoad_eq, clips, issued]
  rfl

/-- A lane's part of a port, once its held request has ended. -/
theorem PortRec.dropHeld_exchange {r : PortRec} {l : Lane} {x : Exchange} (h : (r.dropHeld l).exchange = some x) :
    x.purpose.isOf l = false := by
  have := (Option.filter_eq_some_iff.1 h).2
  simpa using this

/-- The load engine takes a load only where it has none, and then the first of the queue. -/
theorem State.dispatchLoad_cases (s : State) :
    s.dispatchLoad = s ∨ ∃ x xs, s.copy = none ∧ s.loadQueue = x :: xs ∧
      s.dispatchLoad.copy = some ⟨x, 0, crcInit, s.nextTag⟩ ∧ s.dispatchLoad.loadQueue = xs := by
  cases copy : s.copy with
  | some x => exact .inl (State.dispatchLoad_busy copy)
  | none =>
    cases queue : s.loadQueue with
    | nil => exact .inl (State.dispatchLoad_empty queue)
    | cons x xs =>
      refine .inr ⟨x, xs, rfl, rfl, ?_, ?_⟩
      all_goals rw [State.dispatchLoad_idle copy queue]

/-- What holds of every load of the engine and the queue still holds once the engine has taken one. -/
theorem State.dispatchLoad_all {s : State} {P : Load → Prop} (queue : ∀ x ∈ s.loadQueue, P x)
    (copy : ∀ x, s.copy = some x → P x.load) :
    (∀ x ∈ s.dispatchLoad.loadQueue, P x) ∧ ∀ x, s.dispatchLoad.copy = some x → P x.load := by
  obtain same | ⟨x, xs, -, loads, took, rest⟩ := s.dispatchLoad_cases
  · rw [same]
    exact ⟨queue, copy⟩
  · rw [loads] at queue
    rw [took, rest]
    refine ⟨fun y mem => queue y (List.mem_cons_of_mem _ mem), fun y h => ?_⟩
    cases h
    exact queue x (List.mem_cons_self ..)

/-- No load of a lane is left once that lane's have been dropped. -/
theorem loads_dropped (s : State) (l : Lane) :
    (∀ x ∈ s.loadQueue.filter (fun y => y.lane != l), x.lane ≠ l) ∧
      ∀ x, s.copy.filter (fun y => y.load.lane != l) = some x → x.load.lane ≠ l := by
  refine ⟨fun x mem => ?_, fun x h => ?_⟩
  · simpa using (List.mem_filter.1 mem).2
  · simpa using (Option.filter_eq_some_iff.1 h).2

theorem windowAbort_held {s : State} {l : Lane} (held : (s.units.get l).state = .active .held) :
    exec (.windowAbort l) s = .next (s.abortUnit l).dispatchLoad := by
  simp [exec, execWindowAbort, State.inPhase, held]

theorem windowAbort_other {s : State} {l : Lane} (other : (s.units.get l).state ≠ .active .held) :
    exec (.windowAbort l) s = .next (s.abortUnit l) := by
  simp [exec, execWindowAbort, State.inPhase, other]

/-- The abort of a unit that is neither HANDED nor HELD changes that unit alone. -/
theorem State.abortUnit_simple {s : State} {l : Lane} (handed : (s.units.get l).state ≠ .active .handed)
    (held : (s.units.get l).state ≠ .active .held) :
    s.abortUnit l = { s with units := (s.abortUnit l).units } := by
  unfold State.abortUnit
  split
  · rfl
  · rfl
  · rfl
  · rename_i p state
    rw [state] at handed held
    cases p with
    | handed => exact absurd rfl handed
    | held => exact absurd rfl held
    | _ => rfl

theorem State.abortUnit_handed {s : State} {l : Lane} (handed : (s.units.get l).state = .active .handed) :
    s.abortUnit l = { s with units := (s.abortUnit l).units, walk := none } := by
  simp only [State.abortUnit, handed]
  rfl

/-- A unit that has been aborted: IDLE, with its address, its list base, its causes and its window. -/
theorem State.abortUnit_unit (s : State) (l : Lane) :
    ((s.abortUnit l).units.get l).state = .idle ∧
      (s.abortUnit l).units.get l = { s.units.get l with
        state := .idle, block := ((s.abortUnit l).units.get l).block, answer := ((s.abortUnit l).units.get l).answer } := by
  by_cases held : (s.units.get l).state = .active .held
  · obtain ⟨w, -, e⟩ := State.abortUnit_held held
    rw [e]
    simp
  · unfold State.abortUnit
    cases state : (s.units.get l).state with
    | idle =>
      refine ⟨state, ?_⟩
      simp only [← state]
    | suspended => simp [State.moveUnit]
    | faulted d => simp [State.moveUnit]
    | active p =>
      cases p with
      | held => exact absurd state held
      | _ => simp [State.moveUnit]

/-- The unit of an aborted lane, once the engine has taken its next load. -/
theorem windowAbort_unit {s t : State} {l : Lane} (e : exec (.windowAbort l) s = .next t) :
    t.units = (s.abortUnit l).units := by
  by_cases held : (s.units.get l).state = .active .held
  · rw [windowAbort_held held] at e
    cases e
    rw [State.dispatchLoad_frame]
  · rw [windowAbort_other held] at e
    cases e
    rfl

/-- Settles O9: the unit is IDLE, and with a HELD unit its load or port request ends. -/
theorem abortEndsTheUnitsWork : Obligations.AbortEndsTheUnitsWork := by
  refine ⟨fun s l => ?_, fun s l held => ?_⟩
  · refine ⟨_, rfl, ?_⟩
    rw [windowAbort_unit (s := s) (l := l) rfl]
    obtain ⟨idle, unit⟩ := s.abortUnit_unit l
    refine ⟨idle, ?_, ?_, ?_, ?_, fun k ne => (s.abortUnit_spec l).1 k ne |>.1, fun handed held => ?_, fun handed => ?_⟩
    · rw [unit]
    · rw [unit]
    · rw [unit]
    · rw [unit]
    · have e := State.abortUnit_simple handed held
      simp only [State.inPhase, held, beq_iff_eq, if_false]
      exact e
    · have e := State.abortUnit_handed handed
      simp only [State.inPhase, handed, beq_iff_eq, UnitState.active.injEq, reduceCtorEq, if_false]
      exact e
  · obtain ⟨w, aborted, u⟩ := State.abortUnit_held held
    refine ⟨_, windowAbort_held held, ?_⟩
    generalize hv : s.abortUnit l = v at u
    have writes : v.writes = s.writes ++ [w] := by rw [u]
    have clips : v.clips = (s.abortLoad l).clips := by rw [u]
    have queue : v.loadQueue = s.loadQueue.filter fun y => y.lane != l := by rw [u]
    have copy : v.copy = s.copy.filter fun y => y.load.lane != l := by rw [u]
    have ports : v.ports = s.ports.map fun r => r.dropHeld l := by rw [u]
    have inFlight : v.inFlight = s.inFlight.filter fun m => !m.isHeldDone l := by rw [u]
    have tag : v.nextTag = s.nextTag + 1 := by rw [u]
    have sent : v.sent = s.sent := by rw [u]
    have frame := v.dispatchLoad_frame
    obtain ⟨freeQueue, freeCopy⟩ := loads_dropped s l
    rw [← queue] at freeQueue
    rw [← copy] at freeCopy
    obtain ⟨loads, loaded⟩ := State.dispatchLoad_all freeQueue freeCopy
    have portsAfter : v.dispatchLoad.ports = s.ports.map fun r => r.dropHeld l := by rw [frame, ports]
    have inFlightAfter : v.dispatchLoad.inFlight = s.inFlight.filter fun m => !m.isHeldDone l := by rw [frame, inFlight]
    refine ⟨⟨w, aborted, by rw [frame, writes]⟩, fun x n c load clip loading => ?_, fun i other => ?_, loads, loaded,
      fun x hx ne => ?_, fun x hx same => ⟨fun none => ?_, fun y ys some => ?_⟩, fun p x h => ?_, fun p => ?_, fun p => ?_,
      fun m mem => ?_, inFlightAfter, ?_⟩
    · have same : v.dispatchLoad.clips = (s.abortLoad l).clips := by rw [frame, clips]
      unfold State.clipAt
      rw [same]
      exact State.abortLoad_clipAt load clip loading
    · have same : v.dispatchLoad.clips = (s.abortLoad l).clips := by rw [frame, clips]
      rw [same]
      exact State.abortLoad_otherClips other
    · have kept : v.copy = some x := by rw [copy, hx]; simp [Option.filter, ne]
      rw [State.dispatchLoad_busy kept]
      exact ⟨kept.trans hx.symm, queue, sent⟩
    · have empty : v.copy = Option.none := by rw [copy, hx]; simp [Option.filter, same]
      rw [none] at queue
      rw [State.dispatchLoad_empty queue]
      exact ⟨empty, queue, sent⟩
    · have empty : v.copy = none := by rw [copy, hx]; simp [Option.filter, same]
      rw [some] at queue
      rw [State.dispatchLoad_idle empty queue, ← tag]
      exact ⟨rfl, rfl⟩
    · rw [portsAfter, Table.get_map] at h
      exact PortRec.dropHeld_exchange h
    · rw [portsAfter, Table.get_map]
      exact ⟨rfl, rfl⟩
    · rw [portsAfter, Table.get_map]
      rfl
    · rw [inFlightAfter] at mem
      simpa using (List.mem_filter.1 mem).2
    · rw [frame, u]

end Sys2Proof.Machine
end

section
/-!
SUPPORT. START, PAUSE and RESUME of a record that the checks find (R48, R83, R84), and the three queries (R19, R20, R144, R165).
-/

namespace Sys2Proof.Machine

/-! ## START (R48) -/

theorem StartGiven.eq_of_point_at {g : StartGiven} {t : BitVec 64} (h : g.point = some (.at t)) : g = .at t := by
  unfold StartGiven.point at h
  split at h
  · cases h
  · cases h; rfl
  · split at h <;> cases h
  · cases h
  · cases h

theorem StartGiven.present_of_point {g : StartGiven} {p : StartPoint} (h : g.point = some p) :
    (g != .absent && g != .malformed) = true := by
  unfold StartGiven.point at h
  split at h
  case h_4 => cases h
  case h_5 => cases h
  all_goals rfl

/-- An AT start point lies before the stop point, where both are present. -/
theorem startBeforeStop_of {g : StartGiven} {p : StartPoint} (point : g.point = some p) {stop : Option (BitVec 64)}
    (before : ∀ t u, p = .at t → stop = some u → t.toNat < u.toNat) : startBeforeStop g stop = true := by
  unfold startBeforeStop
  split
  · cases point
    exact decide_eq_true (before _ _ rfl rfl)
  · rfl

theorem State.startInTime_of {s : State} {p : StartPoint} {late : Bool} (h : ∀ t, p = .at t → late = true ∨ s.now < ticks t) :
    s.startInTime (some p) late = true := by
  unfold State.startInTime
  split
  · rename_i t e
    cases e
    obtain l | l := h t rfl <;> simp [l]
  · rfl
  · rfl
  · rfl

theorem State.triggerAllowed_of {s : State} {l : Lane} {p : StartPoint}
    (h : ∀ t, p = .on t → l = 0 ∨ l = (s.triggers.get t).owner) : s.triggerAllowed l (some p) = true := by
  unfold State.triggerAllowed
  split
  · rename_i t e
    cases e
    exact laneMay_true (h t rfl)
  · rfl
  · rfl
  · rfl

/-- Settles O18: the checks find the record, and its start is State.beginStart. -/
theorem startArmsOrQueues : Obligations.StartArmsOrQueues := by
  intro s l q late h r p handed point names record lane owner staged stop time
  have checks : s.checkStart l q late = .ok (h, p) := by
    have found := State.findEmitter_ok names record (laneMay_true lane)
    simp [State.checkStart, need, want, StartGiven.present_of_point point, point, found, State.triggerAllowed_of owner, staged,
      startBeforeStop_of point (fun t u at_ stop' => stop t u at_ stop'), State.startInTime_of time, bind, Except.bind,
      pure, Except.pure]
  obtain ⟨k, started⟩ := s.beginStart_started h r p record staged
  refine ⟨s.beginStart h p, k, ?_, started⟩
  rw [exec_accepted (exec_start_handed handed) checks]
  simp only [State.startEffect, started.1]
  rfl

/-! ## PAUSE and RESUME (R83, R84) -/

theorem State.checkPlaying_ok {s : State} {l : Lane} {raw : RawHandle} {h : EmitterHandle} {r : Record}
    (names : raw.emitter = some h) (record : s.recordAt h = some r) (lane : l = 0 ∨ l = r.lane) {x : EmState}
    (state : r.state = x) : s.checkPlaying l raw x = .ok (h, r) := by
  have found := State.findEmitter_ok names record (laneMay_true lane)
  simp [State.checkPlaying, found, need, state, bind, Except.bind, pure, Except.pure]

theorem State.slotOf_owner {s : State} {h : EmitterHandle} {n : SlotNo} (e : s.slotOf h = some n) :
    (s.slots.get n).owner = some h := by
  simpa using List.find?_some e

/-- A slot whose holder or clip is gone issues no run. -/
theorem State.issueRun_frame (s : State) (n : SlotNo) :
    s.issueRun n = { s with slots := (s.issueRun n).slots, nextTag := (s.issueRun n).nextTag } := by
  unfold State.issueRun
  simp only
  split
  · rfl
  · split <;> rfl

theorem State.refill_frame (s : State) (h : EmitterHandle) :
    s.refill h = { s with slots := (s.refill h).slots, nextTag := (s.refill h).nextTag } := by
  unfold State.refill
  split
  · exact s.issueRun_frame _
  · rfl

theorem State.resendEnd_eq (s : State) (h : EmitterHandle) :
    s.resendEnd h = { s with inFlight := (s.resendEnd h).inFlight } := by
  unfold State.resendEnd
  split
  · split <;> rfl
  · rfl

/-- The end-of-clip report is sent again where the tail of the slot has ended. -/
theorem State.resendEnd_inFlight {s : State} {h : EmitterHandle} {n : SlotNo} (slot : s.slotOf h = some n) :
    (s.resendEnd h).inFlight = s.inFlight ++ if (s.slots.get n).endFound = true then [.endOfClip h] else [] := by
  unfold State.resendEnd
  rw [slot]
  simp only
  split
  · rfl
  · simp

/-- What a PAUSE does to the record and its slot. -/
theorem State.pause_spec {s : State} {h : EmitterHandle} {r : Record} (record : s.recordAt h = some r) {u : State}
    (hu : u = (s.putRecord h.slot { r with state := .paused }).refill h) :
    u.recordAt h = some { r with state := .paused } ∧ s.otherEntries u h.slot ∧
      (s.slotOf h = none → u.slots = s.slots ∧ u.nextTag = s.nextTag) ∧
      (∀ n c, s.slotOf h = some n → s.clipAt r.clip = some c → (∀ m, m ≠ n → u.slots.get m = s.slots.get m) ∧
        (s.slots.get n).RunIssued (u.slots.get n) s.nextTag u.nextTag h { r with state := .paused } c) ∧
      u = { s with entries := u.entries, slots := u.slots, nextTag := u.nextTag } := by
  have paused : (s.putRecord h.slot { r with state := .paused }).recordAt h = some { r with state := .paused } :=
    State.recordAt_putRecord record _
  have frame := (s.putRecord h.slot { r with state := .paused }).refill_frame h
  rw [← hu] at frame
  have entries : u.entries = (s.putRecord h.slot { r with state := .paused }).entries := by rw [frame]
  refine ⟨?_, fun k ne => ?_, fun none => ?_, fun n c slot clip => ?_, ?_⟩
  · unfold State.recordAt at paused ⊢
    rw [entries]
    exact paused
  · rw [entries]
    exact Table.get_set_ne _ _ _ _ ne
  · have same : u = s.putRecord h.slot { r with state := .paused } := by
      rw [hu]
      unfold State.refill
      rw [show (s.putRecord h.slot { r with state := .paused }).slotOf h = Option.none from none]
    rw [same]
    exact ⟨rfl, rfl⟩
  · have view : (s.putRecord h.slot { r with state := .paused }).slotView n = some (h, { r with state := .paused }, c) :=
      State.slotView_eq (State.slotOf_owner slot) paused clip
    obtain ⟨y, next, issued, run⟩ := State.issueRun_spec view
    have e : u = (s.putRecord h.slot { r with state := .paused }).issueRun n := by
      rw [hu]
      unfold State.refill
      rw [show (s.putRecord h.slot { r with state := .paused }).slotOf h = some n from slot]
    rw [e, issued]
    refine ⟨fun m ne => Table.get_set_ne _ _ _ _ ne, ?_⟩
    simp only [Table.get_set_self]
    exact run
  · rw [frame]
    rfl

/-- Settles O19: PAUSE and RESUME change the state of the record, and of its slot what R83 and R84 let them. -/
theorem pauseAndResumeKeepThePosition : Obligations.PauseAndResumeKeepThePosition := by
  intro s l raw h r names record lane
  refine ⟨fun handed state => ⟨_, exec_accepted (exec_pause_handed handed) (State.checkPlaying_ok names record lane state),
    State.pause_spec record rfl⟩, fun handed state => ⟨_, exec_accepted (exec_resume_handed handed)
    (State.checkPlaying_ok names record lane state), ?_⟩⟩
  simp only [State.resumeEffect]
  generalize hv : s.putRecord h.slot { r with state := .onAir } = v
  have frame := v.resendEnd_eq h
  have played : v.recordAt h = some { r with state := .onAir } := hv ▸ State.recordAt_putRecord record _
  have entries : (v.resendEnd h).entries = v.entries := by rw [frame]
  have slots : v.slotOf h = s.slotOf h := by rw [← hv]; rfl
  refine ⟨?_, fun k ne => ?_, fun none => ?_, fun n slot => ?_, ?_⟩
  · unfold State.recordAt at played ⊢
    rw [entries]
    exact played
  · rw [entries, ← hv]
    exact Table.get_set_ne _ _ _ _ ne
  · rw [State.resendEnd, slots, none, ← hv]
    rfl
  · rw [State.resendEnd_inFlight (slots.trans slot), ← hv]
    rfl
  · rw [frame, ← hv]
    rfl

/-! ## The queries -/

theorem laneMayUse_iff (l k : Lane) : laneMayUse l k = true ↔ l = 0 ∨ l = k ∨ k = 0 := by
  simp only [laneMayUse, Bool.or_eq_true, beq_iff_eq, or_assoc]
  exact or_congr_right (or_congr_left eq_comm)

theorem eight_val {b : BitVec 8} {p : Fin 8} (h : b.toNat = p.val) : eight b = some p := by
  have lt : b.toNat < 8 := by omega
  rw [eight, dif_pos lt]
  exact congrArg some (Fin.ext h)

theorem State.findPort_ok {s : State} {l : Lane} {b : BitVec 8} {p : Port} (names : b.toNat = p.val)
    (lane : l = 0 ∨ l = (s.ports.get p).owner) : s.findPort l b = .ok p := by
  simp [State.findPort, want, eight_val names, need, laneMay_true lane, bind, Except.bind, pure, Except.pure]

theorem State.checkQueryClip_of {s : State} {l : Lane} {raw : RawHandle} {c : Clip} (clip : s.clipAt raw.clip = some c)
    (lane : l = 0 ∨ l = c.lane ∨ c.lane = 0) : s.checkQueryClip l raw = .ok (raw.clip, c) := by
  simp [State.checkQueryClip, State.findClip_ok clip, need, (laneMayUse_iff l c.lane).2 lane, bind, Except.bind, pure,
    Except.pure]

/-- Settles O20: an image is read before its causes are cleared. -/
theorem queriesReadAndClear : Obligations.QueriesReadAndClear := by
  refine ⟨fun s l raw clear h r handed names record lane => ⟨_, _, exec_accepted (exec_queryEmitter_handed handed)
    (State.findEmitter_ok names record (laneMay_true lane)), rfl, rfl, rfl, rfl, rfl, rfl, fun k ne => ?_, ?_, ?_⟩,
    fun s l raw clear h c handed names clip lane => ?_, fun s l b clear p handed names lane => ⟨_, _,
    exec_accepted (exec_queryPort_handed handed) (State.findPort_ok names lane), rfl, rfl, rfl, rfl, rfl, rfl, rfl, ?_, ?_⟩⟩
  · cases clear with
    | false => rfl
    | true => exact Table.get_set_ne _ _ _ _ ne
  · rintro rfl; rfl
  · rintro rfl
    exact ⟨State.recordAt_putRecord record _, rfl⟩
  · subst names
    refine ⟨_, _, exec_accepted (exec_queryClip_handed handed) (State.checkQueryClip_of clip lane), rfl, rfl, rfl, rfl, rfl,
      rfl, rfl, rfl, ?_, ?_⟩
    · rintro rfl; rfl
    · rintro rfl
      exact ⟨State.clipAt_putClip clip _, State.putClip_other s _ _, rfl⟩
  · rintro rfl; rfl
  · rintro rfl
    exact ⟨Table.get_set_self .., fun k ne => Table.get_set_ne _ _ _ _ ne, rfl⟩

end Sys2Proof.Machine
end

section
/-!
SUPPORT. The checks of a CREATE, each said in the words of R13 to R15, the entry that it takes (R16), and the record that it
makes (R17, R18).
-/

namespace Sys2Proof.Machine

/-! ## The fields of a request in range (R14) -/

theorem fade_isSome_iff (h : RawHandle) : h.fade.isSome = true ↔ h.slot.toNat < 16 := by
  unfold RawHandle.fade
  split <;> simp_all

theorem four_isSome_iff (b : BitVec 8) : (four b).isSome = true ↔ b.toNat < 4 := by
  unfold four
  split <;> simp_all

theorem PathField.inRange_iff (f : PathField) : f.inRange = true ↔ f.Ranged := by
  unfold PathField.inRange PathField.Ranged
  simp only [Bool.and_eq_true, decide_eq_true_eq, Bool.or_eq_true, bne_iff_ne, fade_isSome_iff, and_assoc, ne_eq,
    ← imp_iff_not_or]

theorem LoopField.inRange_iff {f : LoopField} {m : LoopMode} (mode : f.mode = some m) :
    f.inRange = true ↔ ∀ a b, m = .loop a b → a < b ∧ 1024 ≤ b - a := by
  cases f with
  | once => cases mode; simp [LoopField.inRange]
  | loop a b =>
    cases mode
    simp only [LoopField.inRange, Bool.and_eq_true, decide_eq_true_eq, LoopMode.loop.injEq]
    exact ⟨by rintro h _ _ ⟨rfl, rfl⟩; exact h, fun h => h _ _ ⟨rfl, rfl⟩⟩
  | unknown => cases mode

theorem CueField.inRange_iff (f : CueField) : f.inRange = true ↔ (f.kind = 1 → f.line.toNat < 4) := by
  unfold CueField.inRange
  rw [Bool.or_eq_true, bne_iff_ne, four_isSome_iff, ne_eq, ← imp_iff_not_or]

theorem StartGiven.inRange_iff (g : StartGiven) : g.inRange = true ↔ ∀ n, g = .on n → n.toNat < 8 := by
  cases g <;> simp [StartGiven.inRange]

theorem StartGiven.point_at_iff (g : StartGiven) (t : BitVec 64) : g.point = some (.at t) ↔ g = .at t :=
  ⟨StartGiven.eq_of_point_at, by rintro rfl; rfl⟩

theorem startBeforeStop_iff (g : StartGiven) (stop : Option (BitVec 64)) :
    startBeforeStop g stop = true ↔ ∀ t u, g.point = some (.at t) → stop = some u → t.toNat < u.toNat := by
  unfold startBeforeStop
  split
  · rename_i t u
    simp only [decide_eq_true_eq, StartGiven.point_at_iff]
    exact ⟨by rintro h _ _ ⟨⟩ ⟨⟩; exact h, fun h => h t u rfl rfl⟩
  · rename_i other
    simp only [StartGiven.point_at_iff, true_iff]
    exact fun t u at_ some => absurd some (other t u at_)

theorem createForm_iff (q : CreateReq) : createForm q = true ↔
    1 ≤ q.paths.length ∧ q.paths.length ≤ 8 ∧ q.ports ≠ 0 ∧ q.loop.mode.isSome = true ∧ q.stop.kind.toNat ≤ 1 ∧
      q.cue.kind.toNat ≤ 1 ∧ q.start.given ≠ .malformed := by
  simp only [createForm, pathCountOk, StartField.wellEncoded, Bool.and_eq_true, decide_eq_true_eq, bne_iff_ne, and_assoc]

theorem createRanges_iff (q : CreateReq) {m : LoopMode} (mode : q.loop.mode = some m) : createRanges q = true ↔
    q.priority ≤ 7 ∧ (∀ f ∈ q.paths, f.Ranged) ∧ (∀ a b, m = .loop a b → a < b ∧ 1024 ≤ b - a) ∧
      (q.cue.kind = 1 → q.cue.line.toNat < 4) ∧ (∀ n, q.start.given = .on n → n.toNat < 8) ∧
      ∀ t u, q.start.given.point = some (.at t) → q.stop.change.value = some u → t.toNat < u.toNat := by
  simp only [createRanges, Bool.and_eq_true, decide_eq_true_eq, List.all_eq_true, PathField.inRange_iff,
    LoopField.inRange_iff mode, CueField.inRange_iff, StartGiven.inRange_iff, startBeforeStop_iff, and_assoc]

/-! ## Fades (R13, R14, R36) -/

/-- What is asked of every fade of a path list, as a condition on the profile that it names. -/
theorem all_fades_iff {vs : List PathVals} {P : FadeRef → Bool} :
    (vs.all fun v => match v.fade with
      | some x => P x
      | none => true) = true ↔ ∀ v ∈ vs, ∀ x, v.fade = some x → P x = true := by
  rw [List.all_eq_true]
  refine forall₂_congr fun v _ => ?_
  cases v.fade <;> simp

theorem State.fadesKnown_iff (s : State) (vs : List PathVals) :
    s.fadesKnown vs = true ↔ ∀ v ∈ vs, ∀ x, v.fade = some x → (s.fadeAt x.profile).isSome = true :=
  all_fades_iff (P := fun x => (s.fadeAt x.profile).isSome)

theorem State.fadesAllowed_iff (s : State) (l : Lane) (vs : List PathVals) : s.fadesAllowed l vs = true ↔
    ∀ v ∈ vs, ∀ x, v.fade = some x → ∀ f, s.fadeAt x.profile = some f → laneMayUse l f.lane = true := by
  unfold State.fadesAllowed
  rw [List.all_eq_true]
  refine forall₂_congr fun v _ => ?_
  cases v.fade with
  | none => simp
  | some x => cases profile : s.fadeAt x.profile <;> simp [profile]

theorem State.fadesPlaced_iff (s : State) (vs : List PathVals) : s.fadesPlaced vs = true ↔
    ∀ v ∈ vs, ∀ x, v.fade = some x → ∀ f, s.fadeAt x.profile = some f → x.index < f.curve.points.length := by
  unfold State.fadesPlaced
  rw [List.all_eq_true]
  refine forall₂_congr fun v _ => ?_
  cases v.fade with
  | none => simp
  | some x => cases profile : s.fadeAt x.profile <;> simp [profile]

/-- The three checks of a path list's fades together. -/
theorem State.fades_iff (s : State) (l : Lane) (vs : List PathVals) :
    (s.fadesKnown vs = true ∧ (l = 0 ∨ s.fadesAllowed l vs = true) ∧ s.fadesPlaced vs = true) ↔
      ∀ v ∈ vs, ∀ z, v.fade = some z → ∃ k, s.fadeAt z.profile = some k ∧ z.index < k.curve.points.length ∧
        (l ≠ 0 → k.lane = l ∨ k.lane = 0) := by
  rw [s.fadesKnown_iff, s.fadesAllowed_iff, s.fadesPlaced_iff]
  constructor
  · rintro ⟨known, allowed, placed⟩ v mem z fade
    obtain ⟨k, profile⟩ := Option.isSome_iff_exists.1 (known v mem z fade)
    refine ⟨k, profile, placed v mem z fade k profile, fun lane => ?_⟩
    have may := (laneMayUse_iff l _).1 (allowed.resolve_left lane v mem z fade k profile)
    exact (may.resolve_left lane).imp_left Eq.symm
  · intro all
    refine ⟨fun v mem z fade => ?_, ?_, fun v mem z fade f profile => ?_⟩
    · obtain ⟨k, profile, -, -⟩ := all v mem z fade
      simp [profile]
    · by_cases zero : l = 0
      · exact .inl zero
      · refine .inr fun v mem z fade f profile => ?_
        obtain ⟨k, named, -, may⟩ := all v mem z fade
        cases named.symm.trans profile
        exact (laneMayUse_iff l _).2 (.inr ((may zero).imp_left Eq.symm))
    · obtain ⟨k, named, index, -⟩ := all v mem z fade
      cases named.symm.trans profile
      exact index

/-! ## Placement and delays (R14) -/

theorem LoopMode.fits_iff (m : LoopMode) (n : Nat) : m.fits n = true ↔ ∀ a b, m = .loop a b → b ≤ n := by
  cases m <;> simp [LoopMode.fits]

theorem LoopMode.admits_iff (m : LoopMode) (n : Nat) : m.admits n = true ↔ ∀ a b, m = .loop a b → n < b := by
  cases m <;> simp [LoopMode.admits]

theorem cueFits_iff (c : Option Cue) (n : Nat) : cueFits c n = true ↔ ∀ k, c = some k → k.sample < n := by
  cases c <;> simp [cueFits]

theorem delaysFit_iff (m : LoopMode) (n : Nat) (vs : List PathVals) : delaysFit m n vs = true ↔
    ∀ v ∈ vs, v.delay < n ∧ ∀ a b, m = .loop a b → v.delay < b - a := by
  unfold delaysFit
  cases m <;> simp

/-! ## The checks before the choice of an entry (R13, R14) -/

/-- The checks of a CREATE before the choice of its entry, as the catalog and the ports judge them. -/
structure State.CreateChecks (s : State) (l : Lane) (q : CreateReq) (m : LoopMode) (c : Clip) : Prop where
  form : createForm q = true
  mode : q.loop.mode = some m
  ranges : createRanges q = true
  clip : s.clipAt q.clip.clip = some c
  known : s.fadesKnown (q.paths.map (·.vals)) = true
  allowed : s.createAllowed l q c = true
  ready : (c.state == .ready) = true
  fitted : ∀ p ∈ portsOf q.ports, ((s.ports.get p).head != .unfitted) = true
  rates : ∀ p ∈ portsOf q.ports, (s.portRate p == c.rate) = true
  places : (q.startOffset.toNat < c.length && m.fits c.length && m.admits q.startOffset.toNat &&
    cueFits q.cue.change.value c.length && carrierFits q.carrier.toInt c.rate && s.fadesPlaced (q.paths.map (·.vals))) = true
  delays : delaysFit m c.length (q.paths.map (·.vals)) = true

theorem State.createAllowed_iff (s : State) (l : Lane) (q : CreateReq) (c : Clip) : s.createAllowed l q c = true ↔
    (l = 0 ∨ s.fadesAllowed l (q.paths.map (·.vals)) = true) ∧ (l ≠ 0 → c.lane = l ∨ c.lane = 0) ∧
      (∀ p ∈ portsOf q.ports, l ≠ 0 → (s.ports.get p).owner = l) ∧
      ∀ t, q.start.given.point = some (.on t) → l ≠ 0 → (s.triggers.get t).owner = l := by
  unfold State.createAllowed
  by_cases zero : l = 0
  · simp [zero]
  · simp only [beq_eq_false_iff_ne.2 zero, Bool.false_or, Bool.and_eq_true, laneMayUse_iff, List.all_eq_true, beq_iff_eq,
      zero, false_or, ne_eq, not_false_eq_true, forall_const, and_assoc]
    constructor
    · rintro ⟨clip, fades, ports, triggers⟩
      refine ⟨fades, clip.imp_left Eq.symm, ports, fun t point => ?_⟩
      rw [point] at triggers
      exact beq_iff_eq.1 triggers
    · rintro ⟨fades, clip, ports, triggers⟩
      refine ⟨clip.imp_left Eq.symm, fades, ports, ?_⟩
      split
      · rename_i t point
        exact beq_iff_eq.2 (triggers t point)
      all_goals rfl

theorem State.createPlaced_iff (s : State) (l : Lane) (q : CreateReq) (m : LoopMode) :
    s.CreatePlaced l q m ↔ ∃ c, s.CreateChecks l q m c := by
  constructor
  · rintro ⟨few, many, ports, mode, priority, stop, cue, start, ranged, loop, line, trigger, before, fades, rights, c, clip,
      ready, offset, lane, ends, sample, carrier, delays, each⟩
    obtain ⟨known, allowed, placed⟩ := (s.fades_iff l (q.paths.map (·.vals))).2 (by simpa using fades)
    refine ⟨c, (createForm_iff q).2 ⟨few, many, ports, by simp [mode], stop, cue, start⟩, mode,
      (createRanges_iff q mode).2 ⟨priority, ranged, loop, line, trigger, before⟩, clip, known, ?_, by simp [ready], ?_, ?_, ?_,
      ?_⟩
    · exact (s.createAllowed_iff l q c).2
        ⟨allowed, lane, fun p mem => (each p ((mem_portsOf _ p).1 mem)).2.2, rights⟩
    · intro p mem
      simpa using (each p ((mem_portsOf _ p).1 mem)).1
    · intro p mem
      simpa using (each p ((mem_portsOf _ p).1 mem)).2.1
    · simp only [Bool.and_eq_true, decide_eq_true_eq, LoopMode.fits_iff, LoopMode.admits_iff, cueFits_iff, carrierFits]
      exact ⟨⟨⟨⟨⟨offset, fun a b e => (ends a b e).1⟩, fun a b e => (ends a b e).2⟩, sample⟩, carrier⟩, placed⟩
    · rw [delaysFit_iff]
      simpa [PathField.vals] using delays
  · rintro ⟨c, ⟨form, mode, ranges, clip, known, allowed, ready, fitted, rates, places, delays⟩⟩
    obtain ⟨few, many, ports, -, stop, cue, start⟩ := (createForm_iff q).1 form
    obtain ⟨priority, ranged, loop, line, trigger, before⟩ := (createRanges_iff q mode).1 ranges
    obtain ⟨fadeLanes, lane, owners, rights⟩ := (s.createAllowed_iff l q c).1 allowed
    simp only [Bool.and_eq_true, decide_eq_true_eq, LoopMode.fits_iff, LoopMode.admits_iff, cueFits_iff, carrierFits] at places
    obtain ⟨⟨⟨⟨⟨offset, fits⟩, admits⟩, sample⟩, carrier⟩, placed⟩ := places
    have fades := (s.fades_iff l (q.paths.map (·.vals))).1 ⟨known, fadeLanes, placed⟩
    rw [delaysFit_iff] at delays
    refine ⟨few, many, ports, mode, priority, stop, cue, start, ranged, loop, line, trigger, before, by simpa using fades,
      rights, c, clip, by simpa using ready, offset, lane, fun a b e => ⟨fits a b e, admits a b e⟩, sample, carrier,
      by simpa [PathField.vals] using delays, fun p bit => ?_⟩
    have mem := (mem_portsOf _ p).2 bit
    exact ⟨by simpa using fitted p mem, by simpa using rates p mem, owners p mem⟩

/-! ## The choice of the entry (R16) -/

theorem needPorts_ok {ps : List Port} {ok : Port → Bool} {c : Status} (h : ∀ p ∈ ps, ok p = true) :
    needPorts ps ok c = .ok () := by
  have none : ps.find? (fun p => !ok p) = none := List.find?_eq_none.2 fun p mem => by simp [h p mem]
  simp [needPorts, none]

/-- The first of the numbers that has a property. -/
theorem find_finRange_first {n : Nat} {f : Fin n → Bool} {i : Fin n} (holds : f i = true) (first : ∀ j, j < i → f j = false) :
    (List.finRange n).find? f = some i := by
  rw [List.find?_eq_some_iff_getElem]
  refine ⟨holds, i.val, by simp, by simp, fun j lt => ?_⟩
  have earlier : (⟨j, lt.trans i.isLt⟩ : Fin n) < i := lt
  simpa using first _ earlier

theorem State.chooseEntry_free {s : State} {i : EntryNo} (free : (s.entries.get i).record = none)
    (first : ∀ j, j < i → (s.entries.get j).record ≠ none) : s.chooseEntry = some (i, none) := by
  have found : s.freeEntryNo = some i :=
    find_finRange_first (by simp [free]) fun j lt =>
      Bool.eq_false_iff.2 fun none => first j lt (Option.isNone_iff_eq_none.1 none)
  simp [State.chooseEntry, found]

theorem State.freeEntryNo_none {s : State} (full : ∀ i, (s.entries.get i).record ≠ none) : s.freeEntryNo = none :=
  List.find?_eq_none.2 fun i _ => by simpa using full i

/-! ## The outcome of the checks -/

theorem State.checkCreate_ok {s : State} {l : Lane} {q : CreateReq} {late : Bool} {x : CreateFound}
    (e : s.checkCreate l q late = .ok x) :
    (∃ c, s.CreateChecks l q x.loop c) ∧ s.chooseEntry = some (x.entry, x.reclaimed) ∧
      q.paths.length ≤ s.poolFree ∧
      (∀ p ∈ portsOf q.ports, (s.ports.get p).members.length + (s.ports.get p).reservedJoins ≤ 15) ∧
      (∀ p ∈ portsOf q.ports, (s.ports.get p).committed + weightOf (q.paths.map (·.vals)) ≤ (s.ports.get p).budget) ∧
      s.startInTime q.start.given.point late = true ∧ s.stopInTime q.stop.change.value = true ∧
      x.stop = q.stop.change.value ∧ x.cue = q.cue.change.value ∧ x.start = q.start.given.point := by
  obtain ⟨form, e⟩ := need_bind_ok.1 e
  obtain ⟨m, mode, e⟩ := want_bind_ok.1 e
  obtain ⟨ranges, e⟩ := need_bind_ok.1 e
  obtain ⟨c, clip, e⟩ := want_bind_ok.1 e
  obtain ⟨known, e⟩ := need_bind_ok.1 e
  obtain ⟨allowed, e⟩ := need_bind_ok.1 e
  obtain ⟨ready, e⟩ := need_bind_ok.1 e
  obtain ⟨fitted, e⟩ := needPorts_bind_ok.1 e
  obtain ⟨rates, e⟩ := needPorts_bind_ok.1 e
  obtain ⟨places, e⟩ := need_bind_ok.1 e
  obtain ⟨delays, e⟩ := need_bind_ok.1 e
  obtain ⟨⟨i, old⟩, choice, e⟩ := want_bind_ok.1 e
  simp only at e
  split at e
  · cases e
  rename_i pool
  obtain ⟨full, e⟩ := needPorts_bind_ok.1 e
  obtain ⟨room, e⟩ := needPorts_bind_ok.1 e
  obtain ⟨time, e⟩ := need_bind_ok.1 e
  cases e
  rw [Bool.and_eq_true] at time
  exact ⟨⟨c, form, mode, ranges, clip, known, allowed, ready, fitted, rates, places, delays⟩, choice, by simpa using pool,
    fun p mem => by simpa using full p mem, fun p mem => by simpa using room p mem, time.1, time.2, rfl, rfl, rfl⟩

theorem State.checkCreate_noEntry {s : State} {l : Lane} {q : CreateReq} {late : Bool} {m : LoopMode} {c : Clip}
    (k : s.CreateChecks l q m c) (none : s.chooseEntry = none) : s.checkCreate l q late = .error (.refuse .noEntry) := by
  simp only [State.checkCreate, k.form, k.mode, k.ranges, k.clip, k.known, k.allowed, k.ready, k.places, k.delays, none,
    needPorts_ok k.fitted, needPorts_ok k.rates, need, want, bind, Except.bind, if_true]

/-! ## The record that is made (R17, R18) -/

/-- The handle of the record that a CREATE makes. -/
def State.newHandle (s : State) (x : CreateFound) : EmitterHandle :=
  ⟨x.entry, takeGen (s.entries.get x.entry).gen (s.entries.get x.entry).unused⟩

/-- The state in which a new record stands, before its start point is acted on. -/
def State.recordMade (s : State) (l : Lane) (q : CreateReq) (x : CreateFound) : State :=
  let r := s.newRecord l q x
  let h := s.newHandle x
  let s := ((s.takeEntry x r).takeReference r.clip).joinPorts (portsOf r.ports) h r.weight
  match x.stop with
  | some t => s.request (.stopPoint h t) (ticks t)
  | none => s

theorem State.createEffect_eq (s : State) (l : Lane) (q : CreateReq) (x : CreateFound) :
    s.createEffect l q x = ((match x.start with
      | some p => (s.recordMade l q x).beginStart (s.newHandle x) p
      | none => s.recordMade l q x), .done (.created (s.newHandle x) x.reclaimed)) := rfl

theorem State.takeReference_frame (s : State) (c : ClipHandle) :
    s.takeReference c = { s with clips := (s.takeReference c).clips } := by
  unfold State.takeReference
  split <;> rfl

theorem State.takeReference_clipAt {s : State} {c : ClipHandle} {x : Clip} (clip : s.clipAt c = some x) :
    (s.takeReference c).clipAt c = some { x with refs := x.refs + 1 } := by
  simp only [State.takeReference, clip]
  exact State.clipAt_putClip clip _

theorem State.takeReference_otherClips (s : State) (c : ClipHandle) : s.otherClips (s.takeReference c) c.slot := by
  unfold State.takeReference
  split
  · exact fun _ _ => rfl
  · exact State.putClip_other s _ _

theorem State.joinPorts_ports {s t : State} (same : t.ports = s.ports) (set : BitVec 8) (h : EmitterHandle) (w : Nat) :
    (t.joinPorts (portsOf set) h w).ports = (s.joinPorts (portsOf set) h w).ports := by
  refine Table.ext_get _ _ fun p => ?_
  rw [State.joinPorts_get, State.joinPorts_get, same]

/-- What the making of a record changes. -/
theorem State.recordMade_eq {s : State} {l : Lane} {q : CreateReq} {x : CreateFound}
    (later : ∀ t, x.stop = some t → s.now < ticks t) :
    s.recordMade l q x = { s with
      entries := s.entries.set x.entry ⟨(s.newHandle x).gen, false, some (s.newRecord l q x)⟩
      spentList := s.spentList.filter (fun k => k.slot != x.entry)
      clips := (s.takeReference q.clip.clip).clips
      ports := (s.joinPorts (portsOf q.ports) (s.newHandle x) (s.newRecord l q x).weight).ports
      timer := s.timer ++ (x.stop.map fun t => ⟨.stopPoint (s.newHandle x) t, ticks t⟩).toList } := by
  have clips : ((s.takeEntry x (s.newRecord l q x)).takeReference (s.newRecord l q x).clip).clips =
      (s.takeReference q.clip.clip).clips := by
    unfold State.takeReference
    rw [show (s.takeEntry x (s.newRecord l q x)).clipAt (s.newRecord l q x).clip = s.clipAt q.clip.clip from rfl]
    split <;> rfl
  have ports : (((s.takeEntry x (s.newRecord l q x)).takeReference (s.newRecord l q x).clip).joinPorts
      (portsOf (s.newRecord l q x).ports) (s.newHandle x) (s.newRecord l q x).weight).ports =
      (s.joinPorts (portsOf q.ports) (s.newHandle x) (s.newRecord l q x).weight).ports :=
    State.joinPorts_ports (by rw [State.takeReference_frame]; rfl) _ _ _
  have made : ((s.takeEntry x (s.newRecord l q x)).takeReference (s.newRecord l q x).clip).joinPorts
      (portsOf (s.newRecord l q x).ports) (s.newHandle x) (s.newRecord l q x).weight = { s with
        entries := s.entries.set x.entry ⟨(s.newHandle x).gen, false, some (s.newRecord l q x)⟩
        spentList := s.spentList.filter (fun k => k.slot != x.entry)
        clips := (s.takeReference q.clip.clip).clips
        ports := (s.joinPorts (portsOf q.ports) (s.newHandle x) (s.newRecord l q x).weight).ports } := by
    rw [State.joinPorts_frame, ports, State.takeReference_frame, clips]
    rfl
  simp only [State.recordMade]
  rw [made]
  cases stop : x.stop with
  | none => simp
  | some t => exact State.request_of_lt (later t stop)

theorem State.newRecord_pathVals (s : State) (l : Lane) (q : CreateReq) (x : CreateFound) :
    (s.newRecord l q x).pathVals = q.paths.map (·.vals) := by
  simp [Record.pathVals, State.newRecord, State.bindPath]

/-- Each path of a new record begins with its accumulator 0 and its fade at the starting point. -/
theorem State.newRecord_paths (s : State) (l : Lane) (q : CreateReq) (x : CreateFound) :
    ∀ p ∈ (s.newRecord l q x).paths, p.acc = 0 ∧ s.FadeEntered p.vals p.pos := by
  intro p mem
  obtain ⟨f, -, rfl⟩ := List.mem_map.1 mem
  exact ⟨rfl, s.fadeEntry_entered f.vals⟩

/-- The checks of a stop point: it is later than the count. -/
theorem State.stop_later {s : State} {stop : Option (BitVec 64)} (h : s.stopInTime stop = true) :
    ∀ t, stop = some t → s.now < ticks t := by
  rintro t rfl
  exact of_decide_eq_true h

theorem State.start_later {s : State} {p : Option StartPoint} {late : Bool} (h : s.startInTime p late = true) :
    ∀ t, p = some (.at t) → late = true ∨ s.now < ticks t := by
  rintro t rfl
  simpa [State.startInTime] using h

theorem createMakes_checked {s : State} {l : Lane} {q : CreateReq} {late : Bool} {x : CreateFound}
    (checks : s.checkCreate l q late = .ok x) :
    s.CreatePlaced l q x.loop ∧ x.start = q.start.given.point ∧ x.stop = q.stop.change.value ∧ x.cue = q.cue.change.value ∧
     (∀ i, (s.entries.get i).record = none → (∀ j, j < i → (s.entries.get j).record ≠ none) →
       x.entry = i ∧ x.reclaimed = none) ∧
     ((∀ i, (s.entries.get i).record ≠ none) →
       ∃ h rest, s.spentList = h :: rest ∧ x.entry = h.slot ∧ x.reclaimed = some h) ∧
     q.paths.length ≤ s.poolFree ∧
     (∀ p : Port, q.ports.getLsbD p.val = true → (s.ports.get p).members.length + (s.ports.get p).reservedJoins ≤ 15 ∧
       (s.ports.get p).committed + weightOf (q.paths.map (·.vals)) ≤ (s.ports.get p).budget) ∧
     (∀ t, x.start = some (.at t) → late = true ∨ s.now < ticks t) ∧ (∀ t, x.stop = some t → s.now < ticks t) := by
  obtain ⟨placed, choice, pool, full, room, start, stop, stopIs, cueIs, startIs⟩ := State.checkCreate_ok checks
  refine ⟨(s.createPlaced_iff l q x.loop).2 placed, startIs, stopIs, cueIs, fun i free first => ?_, fun all => ?_, pool,
    fun p bit => ⟨full p ((mem_portsOf _ p).2 bit), room p ((mem_portsOf _ p).2 bit)⟩, fun t e => ?_, fun t e => ?_⟩
  · rw [State.chooseEntry_free free first] at choice
    have taken := Option.some.inj choice
    exact ⟨(congrArg Prod.fst taken).symm, (congrArg Prod.snd taken).symm⟩
  · unfold State.chooseEntry at choice
    rw [State.freeEntryNo_none all] at choice
    split at choice
    · rename_i none
      cases none
    · rename_i h rest _ list
      have taken := Option.some.inj choice
      exact ⟨h, rest, list, (congrArg Prod.fst taken).symm, (congrArg Prod.snd taken).symm⟩
    · cases choice
  · exact State.start_later start t (startIs ▸ e)
  · exact State.stop_later stop t (stopIs ▸ e)

/-- Settles O17: the checks in their order, the entry that is taken, and the record and its start. -/
theorem createMakesARecord : Obligations.CreateMakesARecord := by
  refine ⟨fun s l q late x checks => createMakes_checked checks, fun s l q late m handed placed all none => ?_,
    fun s l q late x handed checks => ?_⟩
  · obtain ⟨c, k⟩ := (s.createPlaced_iff l q m).1 placed
    have noEntry : s.chooseEntry = Option.none := by
      unfold State.chooseEntry
      rw [State.freeEntryNo_none all, none]
    exact exec_refused (exec_create_handed handed) (State.checkCreate_noEntry k noEntry)
  · have later : ∀ t, x.stop = some t → s.now < ticks t := (createMakes_checked checks).2.2.2.2.2.2.2.2.2
    have made := State.recordMade_eq (l := l) (q := q) later
    have entry : (s.recordMade l q x).entries.get x.entry = ⟨(s.newHandle x).gen, false, some (s.newRecord l q x)⟩ := by
      rw [made]
      exact Table.get_set_self ..
    have clips : (s.recordMade l q x).clips = (s.takeReference q.clip.clip).clips := by rw [made]
    have record : (s.recordMade l q x).recordAt (s.newHandle x) = some (s.newRecord l q x) := by
      unfold State.recordAt
      rw [show (s.newHandle x).slot = x.entry from rfl, entry]
      exact if_pos rfl
    have exec := exec_accepted (exec_create_handed handed) checks
    rw [State.createEffect_eq] at exec
    refine ⟨s.recordMade l q x, _, s.newHandle x, s.newRecord l q x, exec, rfl, rfl, entry, fun k ne => ?_, rfl, rfl, rfl, rfl,
      rfl, rfl, rfl, rfl, s.newRecord_pathVals l q x, s.newRecord_paths l q x, rfl, rfl, rfl, rfl, rfl, rfl, rfl, rfl, rfl, rfl,
      rfl, rfl, rfl, rfl, rfl, rfl, rfl, rfl, rfl, rfl, rfl, fun c clip => ?_, fun k ne => ?_, fun p => ?_, ?_, fun none => ?_,
      fun p some => ?_⟩
    · rw [made]
      exact Table.get_set_ne _ _ _ _ ne
    · unfold State.clipAt
      rw [clips]
      exact State.takeReference_clipAt clip
    · rw [clips]
      exact s.takeReference_otherClips _ k ne
    · rw [made]
      exact s.joinPorts_get _ _ _ p
    · rw [made]
    · rw [none]
    · rw [some]
      exact State.beginStart_started _ _ _ p record rfl

end Sys2Proof.Machine
end

section
/-!
SUPPORT. What the giving back of a record's holdings leaves of each place it held (R117, R124): the lists it leaves, the timer,
the trigger and port records, the slot and the clip reference.
-/

namespace Sys2Proof.Machine

/-! ## What a staged change holds (R98 to R101) -/

/-- The staged change of a record waits on the edge of a trigger. -/
def Record.appliesOn (r : Record) (t : Trigger) : Bool :=
  match r.staged with
  | some c => c.apply == .on t
  | none => false

/-- The staged change of a record holds a reservation at a port. -/
def Record.reservesAt (r : Record) (p : Port) : Bool :=
  match r.staged with
  | some c => c.portReservations.any fun y => y.port == p
  | none => false

/-- The expiry is the one that the staged change of the record of `h` has asked for at its AT apply point. -/
def Record.appliesAt (r : Record) (h : EmitterHandle) (e : Expiry) : Bool :=
  match r.staged with
  | some c =>
    match c.apply with
    | .at _ => e == .atApply h c.number
    | .nextFrame | .on _ => false
  | none => false

/-- A trigger record whose lists a record has left. -/
def TriggerRec.leftBy (x : TriggerRec) (h : EmitterHandle) (r : Record) (t : Trigger) : TriggerRec :=
  { x with
    armList := x.armList.filter fun k => k != h
    applyList := if r.appliesOn t then x.applyList.filter fun k => k != h else x.applyList }

/-- A port record that a record has left, with its reservation. -/
def PortRec.leftBy (a : PortRec) (h : EmitterHandle) (r : Record) (p : Port) : PortRec :=
  { a with
    members := if r.ports.getLsbD p.val then a.members.filter fun m => m.handle != h else a.members
    reservations := if r.reservesAt p then a.reservations.filter fun x => x.handle != h else a.reservations }

section
variable {s : State} {h : EmitterHandle} {r : Record}

theorem State.withdrawChange_none (e : s.recordAt h = some r) (none : r.staged = none) : s.withdrawChange h = s := by
  simp [State.withdrawChange, e, none]

theorem State.withdrawChange_timer (e : s.recordAt h = some r) :
    (s.withdrawChange h).timer = s.timer.filter fun x => !r.appliesAt h x.kind := by
  cases staged : r.staged with
  | none =>
    rw [State.withdrawChange_none e staged]
    simp [Record.appliesAt, staged]
  | some d =>
    obtain ⟨next, at_, on⟩ := (State.withdrawChange_spec e staged).2.1
    match apply : d.apply with
    | .nextFrame =>
      rw [(next apply).1]
      simp [Record.appliesAt, staged, apply]
    | .at t =>
      rw [(at_ t apply).1]
      simp [Record.appliesAt, staged, apply, bne]
    | .on t =>
      rw [(on t apply).1]
      simp [Record.appliesAt, staged, apply]

theorem State.withdrawChange_trigger (e : s.recordAt h = some r) (t : Trigger) :
    (s.withdrawChange h).triggers.get t = { s.triggers.get t with
      applyList := if r.appliesOn t then (s.triggers.get t).applyList.filter fun k => k != h
        else (s.triggers.get t).applyList } := by
  cases staged : r.staged with
  | none =>
    rw [State.withdrawChange_none e staged]
    simp [Record.appliesOn, staged]
  | some d =>
    obtain ⟨next, at_, on⟩ := (State.withdrawChange_spec e staged).2.1
    match apply : d.apply with
    | .nextFrame =>
      rw [(next apply).2]
      simp [Record.appliesOn, staged, apply]
    | .at x =>
      rw [(at_ x apply).2]
      simp [Record.appliesOn, staged, apply]
    | .on x =>
      obtain ⟨-, others, own⟩ := on x apply
      by_cases same : t = x
      · subst same
        rw [own]
        simp [Record.appliesOn, staged, apply]
      · rw [others t same]
        simp [Record.appliesOn, staged, apply, Ne.symm same]

theorem State.withdrawChange_port (e : s.recordAt h = some r) (p : Port) :
    (s.withdrawChange h).ports.get p = { s.ports.get p with
      reservations := if r.reservesAt p then (s.ports.get p).reservations.filter fun x => x.handle != h
        else (s.ports.get p).reservations } := by
  cases staged : r.staged with
  | none =>
    rw [State.withdrawChange_none e staged]
    simp [Record.reservesAt, staged]
  | some d =>
    rw [(State.withdrawChange_spec e staged).2.2 p]
    simp only [Change.releasedAt, Record.reservesAt, staged]

end

/-! ## Slots and references -/

theorem State.releaseSlot_none {s : State} {h : EmitterHandle} (none : s.slotOf h = none) : s.releaseSlot h = s := by
  simp [State.releaseSlot, none]

theorem State.releaseSlot_some {s : State} {h : EmitterHandle} {n : SlotNo} (slot : s.slotOf h = some n) :
    s.releaseSlot h = { s with
      slots := s.slots.set n .free
      strayReads := s.strayReads ++ (s.slots.get n).fetch.toList } := by
  simp [State.releaseSlot, slot, State.setSlot]

/-- A slot is released by what the slots and the stray reads hold alone. -/
theorem State.releaseSlot_congr {s t : State} (slots : t.slots = s.slots) (stray : t.strayReads = s.strayReads)
    (h : EmitterHandle) :
    (t.releaseSlot h).slots = (s.releaseSlot h).slots ∧ (t.releaseSlot h).strayReads = (s.releaseSlot h).strayReads := by
  have same : t.slotOf h = s.slotOf h := by rw [State.slotOf, slots]; rfl
  cases slot : s.slotOf h with
  | none => rw [State.releaseSlot_none slot, State.releaseSlot_none (same.trans slot)]; exact ⟨slots, stray⟩
  | some n =>
    rw [State.releaseSlot_some slot, State.releaseSlot_some (same.trans slot)]
    simp only [slots, stray, and_self]

theorem State.releaseReference_gone {s : State} {c : ClipHandle} (none : s.clipAt c = none) : s.releaseReference c = s := by
  simp [State.releaseReference, none]

/-- A reference that is not the last of a DRAINING clip is taken off the clip's count. -/
theorem State.releaseReference_counts {s : State} {c : ClipHandle} {x : Clip} (clip : s.clipAt c = some x)
    (stays : 1 < x.refs ∨ x.state ≠ .draining) : s.releaseReference c = s.putClip c.slot { x with refs := x.refs - 1 } := by
  have no : (x.refs ≤ 1 && x.state == .draining) = false := by
    obtain more | other := stays
    · simp [Nat.not_le.2 more]
    · simp [other]
  simp only [State.releaseReference, clip, no]
  rfl

/-- The drained note that a clip leaves (R142). -/
def Clip.drainedNote (x : Clip) (c : ClipHandle) : DrainedNote :=
  ⟨c, x.lane, { x.causes with drained := true }, x.corrected, x.uncorrectable⟩

/-- The last reference of a DRAINING clip: the clip is gone and its note stands. -/
theorem State.releaseReference_drains {s : State} {c : ClipHandle} {x : Clip} (clip : s.clipAt c = some x)
    (last : x.refs ≤ 1) (draining : x.state = .draining) :
    s.releaseReference c =
      (s.setClip c.slot { s.clips.get c.slot with clip := none, note := some (x.drainedNote c) }).setCause x.lane
        .clipAttention := by
  have yes : (x.refs ≤ 1 && x.state == .draining) = true := by simp [last, draining]
  simp only [State.releaseReference, clip, yes]
  rfl

@[simp] theorem State.setCause_clips (s : State) (l : Lane) (c : Cause) : (s.setCause l c).clips = s.clips := by
  rw [State.setCause_eq]

/-- Setting a cause depends on the units and what has been sent alone. -/
theorem State.setCause_congr {s t : State} (units : t.units = s.units) (sent : t.sent = s.sent) (l : Lane) (c : Cause) :
    (t.setCause l c).units = (s.setCause l c).units ∧ (t.setCause l c).sent = (s.setCause l c).sent := by
  unfold State.setCause
  simp only [State.writeCauses_eq, units, sent, and_self]

/-- A reference is released by what the clips, the units and the messages hold alone. -/
theorem State.releaseReference_congr {s t : State} (clips : t.clips = s.clips) (units : t.units = s.units)
    (sent : t.sent = s.sent) (c : ClipHandle) :
    (t.releaseReference c).clips = (s.releaseReference c).clips ∧ (t.releaseReference c).units = (s.releaseReference c).units ∧
      (t.releaseReference c).sent = (s.releaseReference c).sent := by
  have same : t.clipAt c = s.clipAt c := by rw [State.clipAt, clips]; rfl
  cases clip : s.clipAt c with
  | none =>
    rw [State.releaseReference_gone clip, State.releaseReference_gone (same.trans clip)]
    exact ⟨clips, units, sent⟩
  | some x =>
    by_cases stays : 1 < x.refs ∨ x.state ≠ .draining
    · rw [State.releaseReference_counts clip stays, State.releaseReference_counts (same.trans clip) stays]
      simp only [State.putClip, State.setClip, clips, units, sent, and_self]
    · simp only [not_or, Nat.not_lt, not_not] at stays
      obtain ⟨last, draining⟩ := stays
      rw [State.releaseReference_drains clip last draining, State.releaseReference_drains (same.trans clip) last draining]
      refine ⟨?_, State.setCause_congr (by exact units) (by exact sent) _ _⟩
      simp only [State.setCause_clips, State.setClip, clips]

/-! ## The giving back -/

section
variable {s : State} {h : EmitterHandle} {r : Record} (e : s.recordAt h = some r) (k : r.state.isHolding = true)
include e k

/-- The giving back of the holdings, one after another. -/
theorem State.releaseHoldings_eq :
    s.releaseHoldings h =
      ((((((s.withdrawChange h).leaveWaiting h).withdraw fun e => e.isStartOrStopOf h).releaseSlot h).leavePorts
        (portsOf r.ports) h).releaseReference r.clip) := by
  simp only [State.releaseHoldings, e, k, if_true]

theorem State.releaseHoldings_timer : (s.releaseHoldings h).timer =
    s.timer.filter fun x => !(x.kind.isStartOrStopOf h || r.appliesAt h x.kind) := by
  rw [State.releaseHoldings_eq e k, State.releaseReference_frame, State.leavePorts_frame, State.releaseSlot_frame]
  simp only [State.withdraw, State.leaveWaiting, State.withdrawChange_timer e, List.filter_filter, Bool.not_or]

theorem State.releaseHoldings_armSet : (s.releaseHoldings h).armSet = s.armSet.filter fun k => k != h := by
  rw [State.releaseHoldings_eq e k, State.releaseReference_frame, State.leavePorts_frame, State.releaseSlot_frame,
    State.withdrawChange_frame]
  rfl

theorem State.releaseHoldings_grantQueue : (s.releaseHoldings h).grantQueue = s.grantQueue.filter fun k => k != h := by
  rw [State.releaseHoldings_eq e k, State.releaseReference_frame, State.leavePorts_frame, State.releaseSlot_frame,
    State.withdrawChange_frame]
  rfl

theorem State.releaseHoldings_trigger (t : Trigger) :
    (s.releaseHoldings h).triggers.get t = (s.triggers.get t).leftBy h r t := by
  rw [State.releaseHoldings_eq e k, State.releaseReference_frame, State.leavePorts_frame, State.releaseSlot_frame]
  simp only [State.withdraw, State.leaveWaiting, Table.get_map, State.withdrawChange_trigger e, TriggerRec.leftBy]

theorem State.releaseHoldings_port (p : Port) : (s.releaseHoldings h).ports.get p = (s.ports.get p).leftBy h r p := by
  rw [State.releaseHoldings_eq e k, State.releaseReference_frame]
  simp only
  rw [State.leavePorts_get, State.releaseSlot_frame]
  simp only [State.withdraw, State.leaveWaiting, State.withdrawChange_port e, PortRec.leftBy, PortRec.leave]
  split <;> rfl

theorem State.releaseHoldings_slots :
    (s.releaseHoldings h).slots = (s.releaseSlot h).slots ∧ (s.releaseHoldings h).strayReads = (s.releaseSlot h).strayReads := by
  rw [State.releaseHoldings_eq e k, State.releaseReference_frame, State.leavePorts_frame]
  exact State.releaseSlot_congr (by rw [State.withdrawChange_frame]; rfl) (by rw [State.withdrawChange_frame]; rfl) h

theorem State.releaseHoldings_clips :
    (s.releaseHoldings h).clips = (s.releaseReference r.clip).clips ∧
      (s.releaseHoldings h).units = (s.releaseReference r.clip).units ∧
      (s.releaseHoldings h).sent = (s.releaseReference r.clip).sent := by
  rw [State.releaseHoldings_eq e k]
  refine State.releaseReference_congr ?_ ?_ ?_ _
  all_goals
    rw [State.leavePorts_frame, State.releaseSlot_frame, State.withdrawChange_frame]
    rfl

end

theorem State.releaseHoldings_spent {s : State} {h : EmitterHandle} {r : Record} (e : s.recordAt h = some r)
    (spent : r.state = .spent) : s.releaseHoldings h = s := by
  simp [State.releaseHoldings, e, spent, EmState.isHolding]

theorem isHolding_of_ne_spent {x : EmState} (h : x ≠ .spent) : x.isHolding = true := by
  cases x with
  | spent => exact absurd rfl h
  | _ => rfl

end Sys2Proof.Machine
end

section
/-!
SUPPORT. The spent procedure (R117, R118) and the expiry that ends it (R22): every place that the record held is left, and its entry
waits in the spent list.
-/

namespace Sys2Proof.Machine

/-! ## Causes that stand -/

theorem and_ne_zero_of_or {n : Nat} {a b c : BitVec n} (h : a &&& b ≠ 0) : (a ||| c) &&& b ≠ 0 := by
  intro none
  refine h (BitVec.eq_of_getLsbD_eq fun i lt => ?_)
  have bit := congrArg (fun x => x.getLsbD i) none
  simp only [BitVec.getLsbD_and, BitVec.getLsbD_or, BitVec.ofNat_eq_ofNat, BitVec.getLsbD_zero] at bit ⊢
  revert bit
  cases a.getLsbD i
  · exact fun _ => rfl
  · exact id

/-- Every cause that stands in `s` stands in `t`. -/
def State.CausesStand (s t : State) : Prop :=
  ∀ l b, (s.units.get l).summary &&& b ≠ 0 → (t.units.get l).summary &&& b ≠ 0

namespace State.CausesStand

theorem refl (s : State) : s.CausesStand s := fun _ _ => id

theorem trans {s t u : State} (a : s.CausesStand t) (b : t.CausesStand u) : s.CausesStand u :=
  fun l x h => b l x (a l x h)

theorem of_units {s t : State} (h : t.units = s.units) : s.CausesStand t := by
  intro l b
  rw [h]
  exact id

theorem setCause (s : State) (l : Lane) (c : Cause) : s.CausesStand (s.setCause l c) := by
  intro k b h
  rw [State.setCause_units, Table.get_set]
  split
  · rename_i same
    subst same
    exact and_ne_zero_of_or h
  · exact h

end State.CausesStand

/-- The cause that has just been set stands. -/
theorem State.setCause_stands (s : State) (l : Lane) (c : Cause) : ((s.setCause l c).units.get l).summary &&& c.bit ≠ 0 := by
  rw [State.setCause_units, Table.get_set_self]
  have nonzero : c.bit ≠ 0 := by cases c <;> decide
  have own : c.bit &&& c.bit ≠ 0 := by rwa [BitVec.and_self]
  rw [BitVec.or_comm]
  exact and_ne_zero_of_or own

/-! ## The steps of the spent procedure -/

/-- The state in which the record stands with its final image and its attention (R117, steps 7 and 8). -/
def State.imagePut (s : State) (h : EmitterHandle) (r : Record) (cause : SpentCause) : State :=
  let t := (s.releaseHoldings h).putRecord h.slot (s.spentImage r cause)
  if cause.unrequested then t.raiseEmitter h .addSpentUnrequested else t

theorem State.enterSpent_eq {s : State} {h : EmitterHandle} {r : Record} (e : s.recordAt h = some r) (cause : SpentCause) :
    s.enterSpent h cause = (s.imagePut h r cause).beginSpentInterval h r.lane := by
  simp only [State.enterSpent, e]
  rfl

theorem State.imagePut_frame (s : State) (h : EmitterHandle) (r : Record) (cause : SpentCause) :
    s.imagePut h r cause = { s.releaseHoldings h with
      entries := (s.imagePut h r cause).entries, units := (s.imagePut h r cause).units, sent := (s.imagePut h r cause).sent } := by
  unfold State.imagePut
  extract_lets t
  split
  · rw [State.raiseEmitter_frame]
    rfl
  · rfl

theorem State.raiseEmitter_stands (s : State) (h : EmitterHandle) (f : EmCauses → EmCauses) :
    s.CausesStand (s.raiseEmitter h f) := by
  unfold State.raiseEmitter
  split
  · exact .refl s
  · rename_i r _
    have put : s.CausesStand (s.putRecord h.slot { r with attention := true, causes := f r.causes }) := .of_units rfl
    exact put.trans (.setCause _ _ _)

theorem State.imagePut_stands (s : State) (h : EmitterHandle) (r : Record) (cause : SpentCause) :
    (s.releaseHoldings h).CausesStand (s.imagePut h r cause) := by
  unfold State.imagePut
  extract_lets t
  have units : t.units = (s.releaseHoldings h).units := by simp only [t, State.putRecord, State.setEntry_units]
  clear_value t
  have put : (s.releaseHoldings h).CausesStand t := .of_units units
  split
  · exact put.trans (t.raiseEmitter_stands h _)
  · exact put

/-- With a spent interval above 0 the entry joins the spent list and its expiry is asked for. -/
theorem State.beginSpentInterval_waits {s : State} {h : EmitterHandle} {l : Lane} (above : s.spentIntervals.get l ≠ 0) :
    s.beginSpentInterval h l = { s with
      spentList := s.spentList ++ [h]
      timer := s.timer ++ [⟨.spent h, s.now + s.spentIntervals.get l * 10000⟩] } := by
  unfold State.beginSpentInterval
  simp only [above, if_false]
  refine State.request_of_lt ?_
  have positive : 0 < s.spentIntervals.get l := Nat.pos_of_ne_zero above
  show s.now < s.now + _
  omega

theorem State.beginSpentInterval_frees {s : State} {h : EmitterHandle} {l : Lane} (zero : s.spentIntervals.get l = 0) :
    s.beginSpentInterval h l = s.freeEntry h := by
  simp [State.beginSpentInterval, zero]

theorem State.imagePut_spentIntervals (s : State) (h : EmitterHandle) (r : Record) (cause : SpentCause) :
    (s.imagePut h r cause).spentIntervals = s.spentIntervals := by
  rw [State.imagePut_frame, State.releaseHoldings_frame]

section
variable {s : State} {h : EmitterHandle} {r : Record} {cause : SpentCause} (e : s.recordAt h = some r)
include e

/-- What the spent procedure changes beside what the giving back of the holdings changes. -/
theorem State.enterSpent_frame :
    s.enterSpent h cause = { s.releaseHoldings h with
      entries := (s.enterSpent h cause).entries, units := (s.enterSpent h cause).units
      sent := (s.enterSpent h cause).sent, spentList := (s.enterSpent h cause).spentList
      timer := (s.enterSpent h cause).timer } := by
  rw [State.enterSpent_eq e]
  by_cases zero : (s.imagePut h r cause).spentIntervals.get r.lane = 0
  · rw [State.beginSpentInterval_frees zero, State.imagePut_frame]
    rfl
  · rw [State.beginSpentInterval_waits zero, State.imagePut_frame]

theorem State.enterSpent_stands : (s.releaseHoldings h).CausesStand (s.enterSpent h cause) := by
  refine (s.imagePut_stands h r cause).trans (.of_units ?_)
  rw [State.enterSpent_eq e]
  by_cases zero : (s.imagePut h r cause).spentIntervals.get r.lane = 0
  · rw [State.beginSpentInterval_frees zero]
    rfl
  · rw [State.beginSpentInterval_waits zero]

theorem State.enterSpent_waits (above : s.spentIntervals.get r.lane ≠ 0) :
    (s.enterSpent h cause).spentList = s.spentList ++ [h] ∧
      (s.enterSpent h cause).timer =
        (s.releaseHoldings h).timer ++ [⟨.spent h, s.now + s.spentIntervals.get r.lane * 10000⟩] := by
  have interval := s.imagePut_spentIntervals h r cause
  rw [State.enterSpent_eq e, State.beginSpentInterval_waits (by rwa [interval])]
  have now : (s.imagePut h r cause).now = s.now := by
    unfold State.now
    rw [State.imagePut_frame, State.releaseHoldings_frame]
  simp only [interval, now]
  have list : (s.imagePut h r cause).spentList = s.spentList := by rw [State.imagePut_frame, State.releaseHoldings_frame]
  have timer : (s.imagePut h r cause).timer = (s.releaseHoldings h).timer := by rw [State.imagePut_frame]
  exact ⟨by rw [list], by rw [timer]⟩

theorem State.enterSpent_frees (zero : s.spentIntervals.get r.lane = 0) :
    (s.enterSpent h cause).spentList = s.spentList.filter (fun k => k != h) ∧
      (s.enterSpent h cause).timer = (s.releaseHoldings h).timer := by
  have interval := s.imagePut_spentIntervals h r cause
  rw [State.enterSpent_eq e, State.beginSpentInterval_frees (by rwa [interval])]
  refine ⟨?_, ?_⟩
  · show (s.imagePut h r cause).spentList.filter _ = _
    rw [State.imagePut_frame, State.releaseHoldings_frame]
  · show (s.imagePut h r cause).timer = _
    rw [State.imagePut_frame]

end

theorem not_mem_filter_ne {α : Type} [DecidableEq α] (xs : List α) (a : α) : a ∉ xs.filter fun k => k != a := by simp

/-- What the release of a clip reference does to the clips and the causes, for any clip. -/
theorem State.releaseReference_otherClips (s : State) (c : ClipHandle) : s.otherClips (s.releaseReference c) c.slot := by
  intro k ne
  cases clip : s.clipAt c with
  | none => rw [State.releaseReference_gone clip]
  | some x =>
    by_cases stays : 1 < x.refs ∨ x.state ≠ .draining
    · rw [State.releaseReference_counts clip stays]
      exact Table.get_set_ne _ _ _ _ ne
    · simp only [not_or, Nat.not_lt, not_not] at stays
      rw [State.releaseReference_drains clip stays.1 stays.2, State.setCause_clips]
      exact Table.get_set_ne _ _ _ _ ne

/-! ## What the record held -/

section
variable {s : State} {h : EmitterHandle} {r : Record} {cause : SpentCause} (e : s.recordAt h = some r)
  (k : r.state.isHolding = true)
include e k

/-- What is left in the timer of what was there: no start or stop of the record, and not its AT apply point. -/
theorem State.enterSpent_timer {x : PendingExpiry} (mem : x ∈ (s.enterSpent h cause).timer) :
    x.kind = .spent h ∨ x ∈ s.timer ∧ x.kind.isStartOrStopOf h = false ∧ r.appliesAt h x.kind = false := by
  have left : x ∈ (s.releaseHoldings h).timer →
      x ∈ s.timer ∧ x.kind.isStartOrStopOf h = false ∧ r.appliesAt h x.kind = false := by
    rw [State.releaseHoldings_timer e k, List.mem_filter]
    rintro ⟨mem, stays⟩
    simpa [mem] using stays
  by_cases zero : s.spentIntervals.get r.lane = 0
  · rw [(State.enterSpent_frees e zero).2] at mem
    exact .inr (left mem)
  · rw [(State.enterSpent_waits e zero).2] at mem
    obtain mem | mem := List.mem_append.1 mem
    · exact .inr (left mem)
    · rw [List.mem_singleton.1 mem]
      exact .inl rfl

/-- An expiry that is no start or stop of the record, and not its AT apply point, stays pending. -/
theorem State.enterSpent_timer_keeps {x : PendingExpiry} (mem : x ∈ s.timer) (start : x.kind.isStartOrStopOf h = false)
    (apply : r.appliesAt h x.kind = false) : x ∈ (s.enterSpent h cause).timer := by
  have stays : x ∈ (s.releaseHoldings h).timer := by
    rw [State.releaseHoldings_timer e k, List.mem_filter]
    exact ⟨mem, by simp [start, apply]⟩
  by_cases zero : s.spentIntervals.get r.lane = 0
  · rwa [(State.enterSpent_frees e zero).2]
  · rw [(State.enterSpent_waits e zero).2]
    exact List.mem_append_left _ stays

/-- The clip of the record loses a reference, or drains. -/
theorem State.enterSpent_clips : (s.enterSpent h cause).clips = (s.releaseReference r.clip).clips := by
  rw [State.enterSpent_frame e]
  exact (State.releaseHoldings_clips e k).1

theorem State.goesSpent :
    ∃ u : State, s.enterSpent h cause = u ∧ s.WentSpent u h r cause ∧ s.otherEntries u h.slot ∧
       (s.spentIntervals.get r.lane ≠ 0 → u.spentList = s.spentList ++ [h] ∧
         ⟨.spent h, s.now + s.spentIntervals.get r.lane * 10000⟩ ∈ u.timer) ∧
       (s.spentIntervals.get r.lane = 0 → u.spentList = s.spentList.filter (fun k => k != h) ∧
         ∀ x ∈ u.timer, x ∈ s.timer) := by
  refine ⟨_, rfl, State.enterSpent_wentSpent e k cause, State.enterSpent_otherEntries e k cause, fun above => ?_,
    fun zero => ⟨(State.enterSpent_frees e zero).1, fun x mem => ?_⟩⟩
  · rw [(State.enterSpent_waits e above).1, (State.enterSpent_waits e above).2]
    exact ⟨rfl, List.mem_append_right _ (List.mem_singleton_self _)⟩
  · rw [(State.enterSpent_frees e zero).2, State.releaseHoldings_timer e k] at mem
    exact (List.mem_filter.1 mem).1

end

/-- A message that is on its way is taken. -/
theorem spentExpiry_takes {s : State} {h : EmitterHandle} (mem : .expiry (.spent h) ∈ s.inFlight) :
    exec (.spentExpiry h) s =
      .next (State.takeSpentExpiry { s with inFlight := s.inFlight.erase (.expiry (.spent h)) } h) :=
  State.onMessage_taken mem

/-- Settles O22: the spent procedure releases each holding, and the spent expiry frees the entry. -/
theorem goingSpentGivesEverythingBack : Obligations.GoingSpentGivesEverythingBack := by
  refine ⟨fun s h r cause e goes => ?_, fun s h mem => ⟨fun r e spent => ?_, fun other => ?_⟩⟩
  · have k := isHolding_of_ne_spent goes
    obtain ⟨u, hu, went, others, waits, frees⟩ := State.goesSpent (cause := cause) e k
    subst hu
    have frame := State.enterSpent_frame (cause := cause) e
    have armSet : (s.enterSpent h cause).armSet = s.armSet.filter fun k => k != h := by
      rw [frame]; exact State.releaseHoldings_armSet e k
    have queue : (s.enterSpent h cause).grantQueue = s.grantQueue.filter fun k => k != h := by
      rw [frame]; exact State.releaseHoldings_grantQueue e k
    have trigger (t : Trigger) : (s.enterSpent h cause).triggers.get t = (s.triggers.get t).leftBy h r t := by
      rw [frame]; exact State.releaseHoldings_trigger e k t
    have port (p : Port) : (s.enterSpent h cause).ports.get p = (s.ports.get p).leftBy h r p := by
      rw [frame]; exact State.releaseHoldings_port e k p
    have slots : (s.enterSpent h cause).slots = (s.releaseSlot h).slots ∧
        (s.enterSpent h cause).strayReads = (s.releaseSlot h).strayReads := by
      rw [frame]; exact State.releaseHoldings_slots e k
    have clips := State.enterSpent_clips (cause := cause) e k
    refine ⟨_, rfl, went, others, waits, frees, armSet ▸ not_mem_filter_ne _ _, queue ▸ not_mem_filter_ne _ _,
      fun t => by rw [trigger]; exact not_mem_filter_ne _ _, fun x mem => ?_, fun n slot => ?_, fun none => ?_,
      fun p bit m mem => ?_, fun p bit => ?_, fun c staged => ⟨fun y mem z reserved => ?_, fun t apply => ?_,
      fun t apply x mem => ?_, fun apply x mem kind => ?_⟩, fun c clip stays => ?_, fun c clip last draining => ?_,
      fun j ne => ?_, ?_⟩
    · obtain kind | ⟨-, stays, -⟩ := State.enterSpent_timer e k mem
      · rw [kind]; rfl
      · exact stays
    · rw [slots.1, slots.2, State.releaseSlot_some slot]
      exact ⟨Table.get_set_self .., fun m ne => Table.get_set_ne _ _ _ _ ne, rfl⟩
    · rw [slots.1, slots.2, State.releaseSlot_none none]
      exact ⟨rfl, rfl⟩
    · rw [port] at mem
      simp only [PortRec.leftBy, bit, if_true, List.mem_filter] at mem
      simpa using mem.2
    · rw [port]
      simp only [PortRec.leftBy, bit]
      rfl
    · have reserves : r.reservesAt y.port = true := by
        simp only [Record.reservesAt, staged, List.any_eq_true]
        exact ⟨y, mem, by simp⟩
      rw [port] at reserved
      simp only [PortRec.leftBy, reserves, if_true, List.mem_filter] at reserved
      simpa using reserved.2
    · have waits : r.appliesOn t = true := by simp [Record.appliesOn, staged, apply]
      rw [trigger]
      simp [TriggerRec.leftBy, waits]
    · obtain kind | ⟨-, -, left⟩ := State.enterSpent_timer e k mem
      · rw [kind]; exact fun h => nomatch h
      · simpa [Record.appliesAt, staged, apply] using left
    · refine State.enterSpent_timer_keeps e k mem (by rw [kind]; rfl) ?_
      simp [Record.appliesAt, staged, apply]
    · unfold State.clipAt
      rw [clips, State.releaseReference_counts clip stays]
      exact State.clipAt_putClip clip _
    · refine ⟨?_, State.enterSpent_stands e _ _ ?_⟩
      · rw [clips, State.releaseReference_drains clip last draining, State.setCause_clips]
        exact Table.get_set_self ..
      · rw [(State.releaseHoldings_clips e k).2.1, State.releaseReference_drains clip last draining]
        exact State.setCause_stands _ _ _
    · rw [clips]
      exact s.releaseReference_otherClips _ j ne
    · rw [frame, State.releaseHoldings_frame]
  · have gen := (State.recordAt_some e).1
    have named : ({ s with inFlight := s.inFlight.erase (.expiry (.spent h)) } : State).recordAt h = some r := e
    rw [spentExpiry_takes mem]
    simp only [State.takeSpentExpiry, named, spent, if_true]
    refine ⟨_, rfl, Table.get_set_self .., ?_, fun j ne => Table.get_set_ne _ _ _ _ ne, rfl, rfl⟩
    simp [State.recordAt, State.freeEntry, State.setEntry]
  · rw [spentExpiry_takes mem]
    unfold State.takeSpentExpiry
    split
    · rfl
    · rename_i r e
      rw [if_neg (other r e)]

end Sys2Proof.Machine
end

section
/-!
SUPPORT. The endings that take a record to SPENT on a message: ramp end, stop point and end of clip (R56, R81, R104, R115).
-/

namespace Sys2Proof.Machine

/-- The state once a message has been taken from those on their way. -/
def State.without (s : State) (m : Message) : State := { s with inFlight := s.inFlight.erase m }

theorem rampEndExpiry_takes {s : State} {h : EmitterHandle} (mem : .expiry (.rampEnd h) ∈ s.inFlight) :
    exec (.rampEndExpiry h) s = .next ((s.without (.expiry (.rampEnd h))).takeRampEnd h) := State.onMessage_taken mem

theorem stopPointExpiry_takes {s : State} {h : EmitterHandle} {time : BitVec 64}
    (mem : .expiry (.stopPoint h time) ∈ s.inFlight) :
    exec (.stopPointExpiry h time) s = .next ((s.without (.expiry (.stopPoint h time))).takeStopPoint h time) :=
  State.onMessage_taken mem

theorem endOfClipReport_takes {s : State} {h : EmitterHandle} (mem : .endOfClip h ∈ s.inFlight) :
    exec (.endOfClipReport h) s = .next ((s.without (.endOfClip h)).takeEndOfClip h) := State.onMessage_taken mem

/-- The spent procedure on the state without a message, said of the state with it. -/
theorem State.without_enterSpent {s : State} {h : EmitterHandle} {r : Record} (m : Message) (e : s.recordAt h = some r)
    (k : r.state.isHolding = true) (cause : SpentCause) :
    s.WentSpent ((s.without m).enterSpent h cause) h r cause ∧ s.otherEntries ((s.without m).enterSpent h cause) h.slot :=
  have named : (s.without m).recordAt h = some r := e
  ⟨State.enterSpent_wentSpent named k cause, State.enterSpent_otherEntries named k cause⟩

section
variable {s : State} {h : EmitterHandle} {r : Record} (e : s.recordAt h = some r)
include e

theorem State.takeRampEnd_fading (fading : r.state = .fading) : s.takeRampEnd h = s.enterSpent h .retired := by
  simp [State.takeRampEnd, e, fading]

theorem State.takeStopPoint_eq (time : BitVec 64) : s.takeStopPoint h time =
    if r.stopPoint = some time then
      if r.state = .staged then s.putRecord h.slot { r with stopPoint := none }
      else if r.state = .faulted ∨ r.state = .spent then s
      else s.enterSpent h .stopPoint
    else s := by
  simp only [State.takeStopPoint, e]
  split
  · split
    case h_1 state => simp [state]
    case h_8 state => simp [state]
    case h_9 state => simp [state]
    all_goals simp_all
  · rfl

theorem State.takeEndOfClip_eq :
    s.takeEndOfClip h = if r.state = .onAir ∨ r.state = .fading then s.enterSpent h .endOfClip else s := by
  simp only [State.takeEndOfClip, e]
  cases r.state <;> simp [EmState.sounds]

end

/-- Settles O24: each ending is the spent procedure with its cause, in the states that it finds. -/
theorem endingsTakeTheRecordToSpent : Obligations.EndingsTakeTheRecordToSpent := by
  refine ⟨fun s h mem => ⟨fun r e fading => ?_, fun other => ?_⟩, fun s h time mem w hw => ⟨fun r e stop => ⟨fun staged => ?_,
    fun staged faulted spent => ?_, fun ended => ?_⟩, fun other => ?_⟩, fun s h mem => ⟨fun r e sounds => ?_, fun other => ?_⟩⟩
  · have named : (s.without (.expiry (.rampEnd h))).recordAt h = some r := e
    exact ⟨_, rampEndExpiry_takes mem, State.takeRampEnd_fading named fading,
      State.takeRampEnd_fading named fading ▸ State.without_enterSpent _ e (by rw [fading]; rfl) .retired⟩
  · rw [rampEndExpiry_takes mem]
    unfold State.takeRampEnd
    split
    · rfl
    · rename_i r e
      rw [if_neg (other r e)]
      rfl
  · subst hw
    have named : (s.without (.expiry (.stopPoint h time))).recordAt h = some r := e
    refine ⟨_, stopPointExpiry_takes mem, ?_⟩
    rw [State.takeStopPoint_eq named, if_pos stop, if_pos staged]
    exact ⟨State.recordAt_putRecord named _, fun k ne => Table.get_set_ne _ _ _ _ ne, rfl⟩
  · subst hw
    have named : (s.without (.expiry (.stopPoint h time))).recordAt h = some r := e
    have goes : ¬ (r.state = .faulted ∨ r.state = .spent) := not_or.2 ⟨faulted, spent⟩
    refine ⟨_, stopPointExpiry_takes mem, ?_⟩
    rw [State.takeStopPoint_eq named, if_pos stop, if_neg staged, if_neg goes]
    exact ⟨rfl, State.without_enterSpent _ e (isHolding_of_ne_spent spent) .stopPoint⟩
  · subst hw
    have named : (s.without (.expiry (.stopPoint h time))).recordAt h = some r := e
    have left : r.state ≠ .staged := by obtain ended | ended := ended <;> simp [ended]
    rw [stopPointExpiry_takes mem, State.takeStopPoint_eq named, if_pos stop, if_neg left, if_pos ended]
    rfl
  · subst hw
    rw [stopPointExpiry_takes mem]
    cases e : s.recordAt h with
    | none =>
      have named : (s.without (.expiry (.stopPoint h time))).recordAt h = none := e
      simp only [State.takeStopPoint, named]
      rfl
    | some r =>
      have named : (s.without (.expiry (.stopPoint h time))).recordAt h = some r := e
      rw [State.takeStopPoint_eq named, if_neg (other r e)]
      rfl
  · have named : (s.without (.endOfClip h)).recordAt h = some r := e
    have holding : r.state.isHolding = true := by obtain sounds | sounds := sounds <;> rw [sounds] <;> rfl
    refine ⟨_, endOfClipReport_takes mem, ?_⟩
    rw [State.takeEndOfClip_eq named, if_pos sounds]
    exact ⟨rfl, State.without_enterSpent _ e holding .endOfClip⟩
  · rw [endOfClipReport_takes mem]
    cases e : s.recordAt h with
    | none =>
      have named : (s.without (.endOfClip h)).recordAt h = none := e
      simp only [State.takeEndOfClip, named]
      rfl
    | some r =>
      have named : (s.without (.endOfClip h)).recordAt h = some r := e
      have no : ¬ (r.state = .onAir ∨ r.state = .fading) := not_or.2 (other r e)
      rw [State.takeEndOfClip_eq named, if_neg no]
      rfl

end Sys2Proof.Machine
end

section
/-!
SUPPORT. The trigger lines (R58), the cue lines (R64, R65) and the messages to the port controllers (R99, R100, R103, R119, R149).
-/

namespace Sys2Proof.Machine

/-! ## Qualification (R58) -/

theorem Edge.level_eq (e : Edge) : e.level = decide (e = .rising) := by
  cases e <;> rfl

/-- A candidate runs out once it has been held for the qualification time and the line is not at its settled level. -/
theorem TriggerRec.runOut_some {r : TriggerRec} {c : Int} (candidate : r.candidate = some c) (now : Int) :
    r.runOut now = true ↔ c + 10 * r.qualification ≤ now ∧ r.line ≠ r.settled := by
  simp [TriggerRec.runOut, candidate]

theorem State.settle_eq (s : State) (t : Trigger) (time : Int) :
    s.settle t time =
      { s with
        triggers := s.triggers.set t { s.triggers.get t with settled := (s.triggers.get t).line, candidate := none }
        inFlight := if (s.triggers.get t).line = decide ((s.triggers.get t).edge = .rising)
          then s.inFlight ++ [.edge t time] else s.inFlight } := by
  unfold State.settle
  rw [← Edge.level_eq]
  extract_lets r u
  split
  · rfl
  · rfl

/-- A candidate that has not run out is left. -/
theorem State.qualify_left {s : State} {t : Trigger}
    (early : ∀ c, (s.triggers.get t).candidate = some c →
      s.now < c + 10 * (s.triggers.get t).qualification ∨ (s.triggers.get t).line = (s.triggers.get t).settled) :
    s.qualify t = s := by
  refine if_neg fun ⟨_, out⟩ => ?_
  cases candidate : (s.triggers.get t).candidate with
  | none => simp [TriggerRec.runOut, candidate] at out
  | some c =>
    obtain ⟨held, moved⟩ := (TriggerRec.runOut_some candidate _).1 out
    obtain before | settled := early c candidate
    · omega
    · exact moved settled

/-- A candidate that has run out settles, at its own time. -/
theorem State.qualify_settles {s : State} {t : Trigger} {c : Int} (ready : s.phase = .ready)
    (candidate : (s.triggers.get t).candidate = some c) (held : c + 10 * (s.triggers.get t).qualification ≤ s.now)
    (moved : (s.triggers.get t).line ≠ (s.triggers.get t).settled) :
    s.qualify t = s.settle t (c + 10 * (s.triggers.get t).qualification) := by
  have out : s.phase = .ready ∧ (s.triggers.get t).runOut s.now = true :=
    ⟨ready, (TriggerRec.runOut_some candidate _).2 ⟨held, moved⟩⟩
  unfold State.qualify
  rw [if_pos out, TriggerRec.completesAt, candidate, Option.getD_some]

/-- Settles O33: a line change and a run-out qualification are each one write of the trigger's record, after the candidate that
has run out has settled. -/
theorem aTriggerQualifiesItsLine : Obligations.ATriggerQualifiesItsLine := by
  intro s t
  refine ⟨fun high ready early => ?_, fun high starting => ?_, fun c ready candidate held moved => ?_,
    fun c high ready candidate held moved => ?_⟩
  · have step : exec (.triggerLineChange t high) s = .next (s.setTrigger t ((s.triggers.get t).lineTo high s.now)) := by
      simp only [exec, execTriggerLineChange, ready, if_true, State.qualify_left early]
    exact ⟨_, step, Table.get_set_self _ _ _, fun k other => Table.get_set_ne _ _ _ _ other, rfl⟩
  · have step : exec (.triggerLineChange t high) s = .next (s.setTrigger t { s.triggers.get t with line := high }) := by
      simp only [exec, execTriggerLineChange, starting, if_false]
    exact ⟨_, step, Table.get_set_self _ _ _, fun k other => Table.get_set_ne _ _ _ _ other, rfl⟩
  · have step : exec (.triggerQualified t) s = .next (s.settle t (c + 10 * (s.triggers.get t).qualification)) :=
      State.qualify_settles ready candidate held moved ▸ rfl
    refine ⟨_, step, ?_⟩
    rw [State.settle_eq]
    exact ⟨Table.get_set_self _ _ _, fun k other => Table.get_set_ne _ _ _ _ other, rfl, rfl⟩
  · have step : exec (.triggerLineChange t high) s = .next ((s.settle t (c + 10 * (s.triggers.get t).qualification)).setTrigger t
        (((s.settle t (c + 10 * (s.triggers.get t).qualification)).triggers.get t).lineTo high
          (s.settle t (c + 10 * (s.triggers.get t).qualification)).now)) := by
      simp only [exec, execTriggerLineChange, ready, if_true, State.qualify_settles ready candidate held moved]
    refine ⟨_, step, ?_⟩
    rw [State.settle_eq]
    refine ⟨?_, fun k other => ?_, rfl, rfl⟩
    · simp only [State.setTrigger, Table.get_set_self, TriggerRec.lineTo, Option.getD_none]
      rfl
    · simp only [State.setTrigger, Table.get_set_ne _ _ _ _ other]

/-! ## Crossings and pulses (R64, R65) -/

/-- A pulse in progress is only made longer. -/
theorem CueState.pulse_pulsing (e time : Int) :
    (CueState.pulsing e).pulse time = .pulsing (if e < time + 100 then time + 100 else e) := by
  have longer : max e (time + 100) = if e < time + 100 then time + 100 else e := by omega
  exact congrArg CueState.pulsing longer

theorem State.takeCrossing_eq {s : State} {h : EmitterHandle} {r : Record} (e : s.recordAt h = some r)
    (holds : r.state.holdsSlot = true) (q : CueLine) (time : Int) :
    s.takeCrossing h q time =
      (s.putRecord h.slot { r with cueCount := satSucc 4294967295 r.cueCount }).setCue q ((s.cues.get q).pulse time) := by
  simp only [State.takeCrossing, e, holds, if_true]
  rfl

/-- The crossing of a record that holds no slot is dropped. -/
theorem State.takeCrossing_dropped {s : State} {h : EmitterHandle} (no : ∀ r, s.recordAt h = some r → r.state.holdsSlot = false)
    (q : CueLine) (time : Int) : s.takeCrossing h q time = s := by
  unfold State.takeCrossing
  cases e : s.recordAt h with
  | none => rfl
  | some r => simp [no r e]

/-- Settles O35: by whether the record holds a slot, and whether the pulse's end has come. -/
theorem aCrossingPulsesItsLine : Obligations.ACrossingPulsesItsLine := by
  intro s h q time
  refine ⟨fun sent r e holds => ?_, fun sent no => ?_, fun e pulse due => ?_, fun e pulse later => ?_⟩
  · have named : (s.without (.crossing h q time)).recordAt h = some r := e
    have step : exec (.cueCrossing h q time) s = .next ((s.without (.crossing h q time)).takeCrossing h q time) :=
      State.onMessage_taken sent
    rw [State.takeCrossing_eq named holds] at step
    refine ⟨_, step, State.recordAt_putRecord named _, fun k other => Table.get_set_ne _ _ _ _ other, fun idle => ?_,
      fun e pulse => ?_, fun k other => Table.get_set_ne _ _ _ _ other, rfl⟩
    · have line : (s.without (.crossing h q time)).cues.get q = .idle := idle
      rw [line]
      exact Table.get_set_self _ _ _
    · have line : (s.without (.crossing h q time)).cues.get q = .pulsing e := pulse
      rw [line, CueState.pulse_pulsing]
      exact Table.get_set_self _ _ _
  · have step : exec (.cueCrossing h q time) s = .next ((s.without (.crossing h q time)).takeCrossing h q time) :=
      State.onMessage_taken sent
    rwa [State.takeCrossing_dropped (s := s.without (.crossing h q time)) no] at step
  · have step : exec (.cuePulseEnd q) s = .next (s.setCue q .idle) := by
      simp only [exec, execCuePulseEnd, pulse, due, if_true]
    exact ⟨_, step, Table.get_set_self _ _ _, fun k other => Table.get_set_ne _ _ _ _ other, rfl⟩
  · simp only [exec, execCuePulseEnd, pulse, Int.not_le.2 later, if_false]

/-! ## The port controllers' messages -/

/-- A message that changes one port's record changes nothing else. -/
theorem State.modifyPort_one (s : State) (p : Port) (f : PortRec → PortRec) :
    (s.modifyPort p f).ports.get p = f (s.ports.get p) ∧ s.otherPorts (s.modifyPort p f) p ∧
      s.modifyPort p f = { s with ports := (s.modifyPort p f).ports } :=
  ⟨Table.get_set_self _ _ _, fun _ other => Table.get_set_ne _ _ _ _ other, rfl⟩

theorem PortRec.join_members (a : PortRec) (h : EmitterHandle) (weight : Nat) :
    a.join h weight = { a with
      members := if ∃ m ∈ a.members, m.handle = h then a.members else a.members ++ [⟨h, weight, []⟩]
      reservations := a.reservations.filter fun x => x.handle != h } := by
  have member : (a.members.any fun m => m.handle == h) = true ↔ ∃ m ∈ a.members, m.handle = h := by simp
  simp only [PortRec.join, member]

theorem PortRec.reweigh_members (a : PortRec) (h : EmitterHandle) (weight : Nat) :
    a.reweigh h weight = { a with
      members := a.members.map fun m => if m.handle = h then { m with weight := weight } else m
      reservations := a.reservations.filter fun x => x.handle != h } := by
  simp only [PortRec.reweigh, beq_iff_eq]

/-- Settles O45: each message is one function of the port's record. -/
theorem portMessagesKeepTheAccounts : Obligations.PortMessagesKeepTheAccounts := by
  rintro s p h weight increase join c r (⟨rfl, rfl⟩ | ⟨rfl, rfl⟩ | ⟨rfl, rfl⟩ | ⟨rfl, rfl⟩ | ⟨rfl, rfl⟩)
  case inl =>
    rw [← PortRec.join_members]
    exact ⟨_, rfl, s.modifyPort_one p _⟩
  case inr.inl =>
    rw [← PortRec.reweigh_members]
    exact ⟨_, rfl, s.modifyPort_one p _⟩
  all_goals exact ⟨_, rfl, s.modifyPort_one p _⟩

/-! ## The counts of a clip (R140, R142, R143) -/

theorem State.countRead_gone {s : State} {h : ClipHandle} (gone : s.clipAt h = none) (o : ReadOutcome) : s.countRead h o = s := by
  simp only [State.countRead, gone]

theorem State.raiseReadError_eq {s : State} {h : ClipHandle} {c : Clip} (e : s.clipAt h = some c) :
    s.raiseReadError h =
      (s.putClip h.slot { c with attention := true, causes := { c.causes with readError := true } }).setCause c.lane
        .clipAttention := by
  simp only [State.raiseReadError, e]

/-- An uncorrectable read: the count and the read error in one write of the clip, and CLIP_ATTENTION. -/
theorem State.countRead_uncorrectable {s : State} {h : ClipHandle} {c : Clip} (e : s.clipAt h = some c) :
    s.countRead h .uncorrectable =
      (s.putClip h.slot { c with
        uncorrectable := satSucc 4294967295 c.uncorrectable
        attention := true, causes := { c.causes with readError := true } }).setCause c.lane .clipAttention := by
  simp only [State.countRead, e]
  rw [State.raiseReadError_eq (State.clipAt_putClip e _)]
  simp only [State.putClip, State.setClip, Table.get_set_self, Table.set_set]
  rfl

/-- A cause set for one lane leaves the other units. -/
theorem State.setCause_one (s : State) (l : Lane) (c : Cause) :
    ((s.setCause l c).units.get l).summary = (s.units.get l).summary ||| c.bit ∧ s.otherUnits (s.setCause l c) l := by
  rw [State.otherUnits, State.setCause_units]
  exact ⟨by rw [Table.get_set_self], fun k other => Table.get_set_ne _ _ _ _ other⟩

/-- A clip is read through the clip table alone. -/
theorem State.clipAt_setCause (s : State) (l : Lane) (c : Cause) (h : ClipHandle) : (s.setCause l c).clipAt h = s.clipAt h := by
  rw [State.clipAt, State.setCause_clips]
  rfl

/-- Settles O44: by the read's outcome, and by whether a reference can be taken and is the last of a DRAINING clip. -/
theorem clipCountsRiseAndFall : Obligations.ClipCountsRiseAndFall := by
  intro s h
  refine ⟨fun o w sent taken => ?_, fun gone => ?_, fun c e enough => ?_, fun c e exceeds => ?_⟩
  · have step : exec (.readCountMessage h o) s = .next (w.countRead h o) := taken ▸ State.onMessage_taken sent
    have same : w.clipAt h = s.clipAt h := taken ▸ rfl
    refine ⟨fun none => ?_, fun c e counts => ?_⟩
    · rw [step]
      obtain gone | rfl := none
      · rw [State.countRead_gone (same.trans gone)]
      · cases e : w.clipAt h <;> simp [State.countRead, e]
    · have clip : w.clipAt h = some c := same.trans e
      refine ⟨_, step, ?_⟩
      cases o with
      | clean => exact absurd rfl counts
      | corrected =>
        have counted : w.countRead h .corrected = w.putClip h.slot { c with corrected := satSucc 4294967295 c.corrected } := by
          simp only [State.countRead, clip]
          rfl
        rw [counted]
        refine ⟨taken ▸ w.putClip_other h.slot _, fun _ => ⟨State.clipAt_putClip clip _, rfl⟩, fun no => ?_⟩
        cases no
      | uncorrectable =>
        rw [State.countRead_uncorrectable clip]
        refine ⟨fun k other => ?_, fun no => ?_, fun _ => ⟨?_, ?_, ?_, ?_⟩⟩
        · rw [State.setCause_clips, taken]
          exact Table.get_set_ne _ _ _ _ other
        · cases no
        · rw [State.clipAt_setCause]
          exact State.clipAt_putClip clip _
        · rw [(State.setCause_one _ _ _).1, taken]
          rfl
        · have others := (State.setCause_one (w.putClip h.slot { c with
            uncorrectable := satSucc 4294967295 c.uncorrectable
            attention := true, causes := { c.causes with readError := true } }) c.lane .clipAttention).2
          subst taken
          exact others
        · rw [State.setCause_frame]
          rfl
  · simp only [exec, execClipReferenceRelease, gone]
  · simp only [exec, execClipReferenceRelease, e, Nat.not_lt.2 enough, if_false]
  · have step : exec (.clipReferenceRelease h) s = .next (s.releaseReference h) := by
      simp only [exec, execClipReferenceRelease, e, exceeds, if_true]
    refine ⟨_, step, ?_⟩
    by_cases stays : 1 < c.refs ∨ c.state ≠ .draining
    · rw [State.releaseReference_counts e stays]
      refine ⟨s.putClip_other h.slot _, fun _ => ⟨State.clipAt_putClip e _, rfl⟩, fun last draining => ?_⟩
      obtain more | other := stays
      · omega
      · exact absurd draining other
    · have last : c.refs ≤ 1 := by
        by_contra more
        exact stays (.inl (by omega))
      have draining : c.state = .draining := by
        by_contra other
        exact stays (.inr other)
      rw [State.releaseReference_drains e last draining]
      refine ⟨fun k other => ?_, fun no => absurd no stays, fun _ _ => ⟨?_, ?_, ?_, ?_⟩⟩
      · rw [State.setCause_clips]
        exact Table.get_set_ne _ _ _ _ other
      · rw [State.setCause_clips]
        exact Table.get_set_self _ _ _
      · exact (State.setCause_one _ _ _).1
      · exact (State.setCause_one _ _ _).2
      · rw [State.setCause_frame]
        rfl

end Sys2Proof.Machine
end

section
/-!
SUPPORT. The expiries of the timer that act on staged changes, fade profiles and the time arm set (R40, R51, R105), the fade profile
table (R39 to R41), and the reports of the read path (R88, R89).
-/

namespace Sys2Proof.Machine

/-! ## Apply expiries (R105) -/

theorem State.takeApply_applies {s : State} {h : EmitterHandle} {r : Record} {d : Change} (e : s.recordAt h = some r)
    (staged : r.staged = some d) (live : r.state.isLive = true) {kind : ApplyPoint → Bool} (at_ : kind d.apply = true) :
    s.takeApply h d.number kind = s.applyStaged h := by
  simp [State.takeApply, e, staged, live, at_]

/-- An expiry that is of no staged change of a live record is dropped. -/
theorem State.takeApply_dropped {s : State} {h : EmitterHandle} {n : Nat} {kind : ApplyPoint → Bool}
    (no : ∀ r d, s.recordAt h = some r → r.staged = some d → r.state.isLive = true → ¬(d.number = n ∧ kind d.apply = true)) :
    s.takeApply h n kind = s := by
  unfold State.takeApply
  cases e : s.recordAt h with
  | none => rfl
  | some r =>
    cases staged : r.staged with
    | none => simp [staged]
    | some d =>
      simp only [staged]
      exact if_neg fun ⟨number, at_, live⟩ => no r d e staged live ⟨number, at_⟩

theorem exec_applyExpiry {s : State} {h : EmitterHandle} {n : Nat} {c : Instr} {e : Expiry} {kind : ApplyPoint → Bool}
    (which : (c, e) = (.atApplyExpiry h n, .atApply h n) ∧ kind = ApplyPoint.isAt ∨
      (c, e) = (.nextFrameApplyExpiry h n, .nextFrameApply h n) ∧ kind = ApplyPoint.isNextFrame)
    (sent : .expiry e ∈ s.inFlight) : exec c s = .next ((s.without (.expiry e)).takeApply h n kind) := by
  obtain ⟨same, rfl⟩ | ⟨same, rfl⟩ := which
  all_goals
    cases same
    exact State.onMessage_taken sent

/-- Settles O26: by whether the expiry is of the record's staged change. -/
theorem anApplyExpiryApplies : Obligations.AnApplyExpiryApplies := by
  intro s h n c e kind which sent
  refine ⟨fun r d record staged live number at_ => ?_, fun no => ?_⟩
  · have named : (s.without (.expiry e)).recordAt h = some r := record
    subst number
    refine ⟨_, exec_applyExpiry which sent, ?_⟩
    rw [State.takeApply_applies named staged live at_]
    exact State.applyStaged_spec named staged
  · rw [exec_applyExpiry which sent, State.takeApply_dropped (s := s.without (.expiry e)) no]
    rfl

/-! ## Start leads (R51) -/

/-- Settles O31: a lead that names a record still ARMED for its time is taken for the whole set. -/
theorem aLeadExpiryQueuesItsRecords : Obligations.ALeadExpiryQueuesItsRecords := by
  intro s time k due isDue
  have armed : ∀ h, s.armedAt time h = due h := fun h => Bool.eq_iff_iff.2 ((s.armedAt_iff time h).trans (isDue h).symm)
  refine ⟨fun sent dueK nodup => ?_, fun gone => ?_⟩
  · have accepts : s.inFlight.any (s.acceptsLead time) = true :=
      List.any_eq_true.2 ⟨_, sent, by simp [State.acceptsLead, armed, dueK]⟩
    have step : exec (.startLeadExpiry time) s = .next ((s.dropLeads time).takeLead time) := by
      simp only [exec, execStartLeadExpiry, accepts, if_true]
    obtain ⟨u, taken, armSet, queue, records, -, timer, sentOn, others, frame⟩ :=
      State.foldl_leadRecord_nodup time due s.armSet (s.dropLeads time) nodup fun h _ => armed h
    have here : u = (s.dropLeads time).takeLead time := taken
    refine ⟨u, here ▸ step, ?_, queue, records, timer, sentOn, others, frame⟩
    rw [armSet]
    refine List.filter_congr fun h mem => ?_
    have member : h ∈ s.armSet := mem
    simp [member]
  · have none : s.inFlight.any (s.acceptsLead time) = false := by
      rw [List.any_eq_false]
      intro m mem accepts
      unfold State.acceptsLead at accepts
      split at accepts
      · rename_i h t
        simp only [Bool.and_eq_true, beq_iff_eq] at accepts
        obtain ⟨rfl, isArmed⟩ := accepts
        rw [armed, gone h mem] at isArmed
        cases isArmed
      · cases accepts
    simp only [exec, execStartLeadExpiry, none]
    rfl

/-! ## Fade profiles (R39 to R41) -/

theorem State.fadeAt_some {s : State} {f : FadeHandle} {p : FadeProfile} (e : s.fadeAt f = some p) :
    (s.fades.get f.slot).gen = f.gen ∧ (s.fades.get f.slot).profile = some p := by
  unfold State.fadeAt at e
  simp only at e
  split at e
  · exact ⟨‹_›, e⟩
  · cases e

theorem State.fadeAt_putFade {s : State} {f : FadeHandle} {p : FadeProfile} (e : s.fadeAt f = some p) (q : Option FadeProfile) :
    (s.putFade f.slot q).fadeAt f = q := by
  simp [State.fadeAt, State.putFade, State.setFade, (State.fadeAt_some e).1]

theorem State.putFade_other (s : State) (i : FadeNo) (q : Option FadeProfile) (j : FadeNo) (other : j ≠ i) :
    (s.putFade i q).fades.get j = s.fades.get j := Table.get_set_ne _ _ _ _ other

theorem State.findFade_ok {s : State} {l : Lane} {raw : RawHandle} {f : FadeHandle} {p : FadeProfile} (names : raw.fade = some f)
    (e : s.fadeAt f = some p) (may : l = 0 ∨ l = p.lane) : s.findFade l raw = .ok (f, p) := by
  simp [State.findFade, need, want, names, e, laneMay_true may, bind, Except.bind, pure, Except.pure]

theorem checkCurve_ok {q : DefineFadeReq} {m : FadeMode} (two : 2 ≤ q.points.length) (most : q.points.length ≤ 64)
    (mode : fadeModeOf q.mode = some m) (gains : ∀ g ∈ q.points, g ≤ 1024) (one : 1 ≤ q.step) (longest : q.step ≤ 1000) :
    checkCurve q = .ok ⟨q.points, q.step, m⟩ := by
  have range : (q.points.all (· ≤ 1024)) = true := by simpa using gains
  simp [checkCurve, need, want, two, most, mode, range, one, longest, bind, Except.bind, pure, Except.pure]

theorem State.freeFade_first {s : State} {i : FadeNo} (free : (s.fades.get i).profile = none)
    (first : ∀ j, j < i → (s.fades.get j).profile.isSome = true) : s.freeFade = some i :=
  find_finRange_first (by simp [free]) fun j lt => by simpa using first j lt

/-- The outcome of a DEFINE_FADE without a handle. -/
theorem State.checkDefineFade_define {s : State} {l : Lane} {q : DefineFadeReq} {c : FadeCurve} {i : FadeNo}
    (curve : checkCurve q = .ok c) (none : q.profile = none) (free : s.freeFade = some i) :
    s.checkDefineFade l q = .ok (c, .define i) := by
  simp [State.checkDefineFade, want, curve, none, free, bind, Except.bind, pure, Except.pure]

/-- The outcome of a DEFINE_FADE with a handle. -/
theorem State.checkDefineFade_replace {s : State} {l : Lane} {q : DefineFadeReq} {c : FadeCurve} {raw : RawHandle}
    {f : FadeHandle} {p : FadeProfile} (curve : checkCurve q = .ok c) (some : q.profile = some raw)
    (found : s.findFade l raw = .ok (f, p)) : s.checkDefineFade l q = .ok (c, .replace f p) := by
  simp [State.checkDefineFade, curve, some, found, bind, Except.bind, pure, Except.pure]

/-- The next frame boundary lies ahead, at most a frame away (R43). -/
theorem nextBoundary_spec (t : Int) : t < nextBoundary t ∧ nextBoundary t ≤ t + 10000 ∧ ∃ k : Int, nextBoundary t = k * 10000 := by
  have boundary : nextBoundary t = (t / 10000 + 1) * 10000 := rfl
  exact ⟨by omega, by omega, _, boundary⟩

/-- A deferred replacement asks for one expiry at the next frame boundary, which lies ahead. -/
theorem State.deferFade_eq (s : State) (f : FadeHandle) (p : FadeProfile) (c : FadeCurve) :
    s.deferFade f p c = { s.putFade f.slot (some { p with replacement := some c }) with
      timer := if s.outstanding (.fadeReplacement f) then s.timer
        else s.timer ++ [⟨.fadeReplacement f, nextBoundary s.now⟩] } := by
  unfold State.deferFade
  extract_lets t
  split
  · rfl
  · have ahead : ¬ nextBoundary s.now ≤ t.now := Int.not_le.2 (nextBoundary_spec s.now).1
    rw [State.request_eq, if_neg ahead, if_neg ahead, List.append_nil]
    rfl

/-- Settles O27: by whether the request names a profile, and whether that is used. -/
theorem fadeProfilesAreDefinedAndRetired : Obligations.FadeProfilesAreDefinedAndRetired := by
  refine ⟨fun s l q m i handed none two most mode gains one longest free first => ?_,
    fun s l q m raw f p handed named names two most mode gains one longest e may => ⟨fun unused => ?_, fun used => ?_⟩,
    fun s l raw f p handed names e may => ⟨fun used => ?_, fun unused => ?_⟩⟩
  · have checks := State.checkDefineFade_define (l := l) (checkCurve_ok two most mode gains one longest) none
      (State.freeFade_first free first)
    exact ⟨_, _, exec_accepted (exec_defineFade_handed handed) checks, rfl, Table.get_set_self _ _ _,
      fun j other => Table.get_set_ne _ _ _ _ other, rfl⟩
  · have checks := State.checkDefineFade_replace (checkCurve_ok two most mode gains one longest) named
      (State.findFade_ok names e may)
    have effect : s.defineFadeEffect l (⟨q.points, q.step, m⟩, .replace f p) =
        (s.putFade f.slot (some { p with curve := ⟨q.points, q.step, m⟩, replacement := .none }),
          .done (.fade f .immediate 0)) := by
      simp [State.defineFadeEffect, unused]
    have step := exec_accepted (exec_defineFade_handed handed) checks
    rw [effect] at step
    exact ⟨_, step, State.fadeAt_putFade e _, s.putFade_other f.slot _, rfl⟩
  · have checks := State.checkDefineFade_replace (checkCurve_ok two most mode gains one longest) named
      (State.findFade_ok names e may)
    have effect : s.defineFadeEffect l (⟨q.points, q.step, m⟩, .replace f p) =
        (s.deferFade f p ⟨q.points, q.step, m⟩, .done (.fade f .pending (s.fadeUses f))) := by
      simp [State.defineFadeEffect, Nat.pos_iff_ne_zero.1 used]
    have step := exec_accepted (exec_defineFade_handed handed) checks
    rw [effect] at step
    refine ⟨_, step, ?_⟩
    rw [State.deferFade_eq]
    exact ⟨State.fadeAt_putFade e _, s.putFade_other f.slot _, rfl, rfl⟩
  · refine exec_refused (exec_retireFade_handed handed) ?_
    simp [State.checkRetireFade, State.findFade_ok names e may, used, bind, Except.bind]
  · have checks : s.checkRetireFade l raw = .ok f := by
      simp [State.checkRetireFade, State.findFade_ok names e may, unused, bind, Except.bind, pure, Except.pure]
    exact ⟨_, exec_accepted (exec_retireFade_handed handed) checks, Table.get_set_self _ _ _, State.fadeAt_putFade e _,
      s.putFade_other f.slot _, rfl⟩

/-! ## A replacement takes its frame (R40) -/

theorem State.takeReplacement_eq {s : State} {f : FadeHandle} {p : FadeProfile} {c : FadeCurve} (e : s.fadeAt f = some p)
    (pending : p.replacement = some c) :
    s.takeReplacement f = { s.putFade f.slot (some { p with curve := c, replacement := none }) with
      entries := s.entries.map fun e => e.moveFades f c.points.length } := by
  simp only [State.takeReplacement, e, pending]
  rfl

theorem State.takeReplacement_dropped {s : State} {f : FadeHandle} (no : ∀ p, s.fadeAt f = some p → p.replacement = none) :
    s.takeReplacement f = s := by
  unfold State.takeReplacement
  cases e : s.fadeAt f with
  | none => rfl
  | some p => simp [no p e]

/-- Settles O28: the profile takes its values, and every entry is moved alone. -/
theorem aReplacementTakesItsFrame : Obligations.AReplacementTakesItsFrame := by
  intro s f sent
  have step : exec (.fadeReplacementExpiry f) s = .next ((s.without (.expiry (.fadeReplacement f))).takeReplacement f) :=
    State.onMessage_taken sent
  refine ⟨fun p c e pending => ?_, fun no => ?_⟩
  · have named : (s.without (.expiry (.fadeReplacement f))).fadeAt f = some p := e
    rw [State.takeReplacement_eq named pending] at step
    refine ⟨_, step, State.fadeAt_putFade named _, State.putFade_other _ _ _, fun i r record held => ⟨_, ?_, rfl⟩,
      fun i => ?_, rfl⟩
    · simp [State.without, Entry.moveFades, record, isHolding_of_ne_spent held, Path.moveFade]
    · simp [State.without, Entry.moveFades]
  · rwa [State.takeReplacement_dropped (s := s.without (.expiry (.fadeReplacement f))) no] at step

/-! ## The reports of the read path (R88, R89) -/

theorem State.raiseEmitter_eq {s : State} {h : EmitterHandle} {r : Record} (e : s.recordAt h = some r)
    (add : EmCauses → EmCauses) :
    s.raiseEmitter h add =
      (s.putRecord h.slot { r with attention := true, causes := add r.causes }).setCause r.lane .emitterAttention := by
  simp only [State.raiseEmitter, e]

/-- A record that is put and at once raised: the entry is written once. -/
theorem State.raiseEmitter_putRecord {s : State} {h : EmitterHandle} (gen : (s.entries.get h.slot).gen = h.gen) (r : Record)
    (add : EmCauses → EmCauses) :
    (s.putRecord h.slot r).raiseEmitter h add =
      (s.putRecord h.slot { r with attention := true, causes := add r.causes }).setCause r.lane .emitterAttention := by
  have named : (s.putRecord h.slot r).recordAt h = some r := by
    simp [State.recordAt, State.putRecord, State.setEntry, gen]
  rw [State.raiseEmitter_eq named]
  simp only [State.putRecord, State.setEntry, Table.get_set_self, Table.set_set]

/-- A record is read through the entry table alone. -/
theorem State.recordAt_setCause (s : State) (l : Lane) (c : Cause) (h : EmitterHandle) :
    (s.setCause l c).recordAt h = s.recordAt h := by
  rw [State.setCause_eq]
  rfl

theorem State.takeRecovered_eq {s : State} {h : EmitterHandle} {r : Record} (e : s.recordAt h = some r)
    (holds : r.state.holdsSlot = true) :
    s.takeRecovered h = (s.putRecord h.slot { r with
      condition := .recovered, attention := true, causes := { r.causes with recovered := true } }).setCause r.lane
        .emitterAttention := by
  simp only [State.takeRecovered, e, holds, if_true]
  exact State.raiseEmitter_putRecord (State.recordAt_some e).1 _ _

/-- The record that a failure leaves (R89). -/
def Record.failed (r : Record) : Record :=
  { r with
    state := .faulted, condition := .muted, staged := none, ramp := none, attention := true
    causes := { r.causes with fault := true } }

/-- What a failure gives back before the record is FAULTED: the staged change, the slot and the start-time expiry (R89). -/
def State.cutOff (s : State) (h : EmitterHandle) : State :=
  ((s.withdrawChange h).releaseSlot h).withdraw fun e => e == .startTime h

section

variable {s : State} {h : EmitterHandle} {r : Record} (e : s.recordAt h = some r)

include e

theorem State.cutOff_entries :
    (s.cutOff h).entries = s.entries.set h.slot { s.entries.get h.slot with record := some { r with staged := none } } := by
  have same : (s.cutOff h).entries = (s.withdrawChange h).entries := by
    rw [State.cutOff, State.releaseSlot_frame]
    rfl
  rw [same, State.withdrawChange_entries e]

theorem State.cutOff_putRecord (q : Record) : ((s.cutOff h).putRecord h.slot q).entries = (s.putRecord h.slot q).entries := by
  simp [State.putRecord, State.setEntry, State.cutOff_entries e]

theorem State.takeFailure_eq (holds : r.state.holdsSlot = true) :
    s.takeFailure h = ((s.cutOff h).putRecord h.slot r.failed).setCause r.lane .emitterAttention := by
  have gen : ((s.cutOff h).entries.get h.slot).gen = h.gen := by
    rw [State.cutOff_entries e, Table.get_set_self]
    exact (State.recordAt_some e).1
  simp only [State.takeFailure, e, holds, if_true]
  exact State.raiseEmitter_putRecord gen _ _

end

theorem State.cutOff_frame (s : State) (h : EmitterHandle) :
    s.cutOff h = { s with
      entries := (s.cutOff h).entries, timer := (s.cutOff h).timer, triggers := (s.cutOff h).triggers
      ports := (s.cutOff h).ports, slots := (s.cutOff h).slots, strayReads := (s.cutOff h).strayReads } := by
  rw [State.cutOff, State.releaseSlot_frame, State.withdrawChange_frame]
  rfl

theorem State.cutOff_slots (s : State) (h : EmitterHandle) :
    (s.cutOff h).slots = (s.releaseSlot h).slots ∧ (s.cutOff h).strayReads = (s.releaseSlot h).strayReads := by
  have same := s.withdrawChange_frame h
  exact State.releaseSlot_congr (by rw [same]) (by rw [same]) h

theorem State.cutOff_members {s : State} {h : EmitterHandle} {r : Record} (e : s.recordAt h = some r) (p : Port) :
    ((s.cutOff h).ports.get p).members = (s.ports.get p).members := by
  have same : (s.cutOff h).ports = (s.withdrawChange h).ports := by
    rw [State.cutOff, State.releaseSlot_frame]
    rfl
  rw [same, State.withdrawChange_port e]

/-- The state that a failure leaves. -/
def State.failedState (s : State) (h : EmitterHandle) (r : Record) : State :=
  ((s.cutOff h).putRecord h.slot r.failed).setCause r.lane .emitterAttention

theorem State.failedState_frame (s : State) (h : EmitterHandle) (r : Record) :
    s.failedState h r = { s with
      entries := ((s.cutOff h).putRecord h.slot r.failed).entries, timer := (s.cutOff h).timer
      triggers := (s.cutOff h).triggers, ports := (s.cutOff h).ports, slots := (s.cutOff h).slots
      strayReads := (s.cutOff h).strayReads, units := (s.failedState h r).units, sent := (s.failedState h r).sent } := by
  have cause := ((s.cutOff h).putRecord h.slot r.failed).setCause_frame r.lane .emitterAttention
  rw [State.putRecord, State.setEntry, State.cutOff_frame] at cause
  rw [State.failedState, State.putRecord, State.setEntry, State.cutOff_frame]
  exact cause

theorem State.failedState_units (s : State) (h : EmitterHandle) (r : Record) :
    ((s.failedState h r).units.get r.lane).summary = (s.units.get r.lane).summary ||| Cause.emitterAttention.bit := by
  rw [State.failedState, State.putRecord, State.setEntry, State.cutOff_frame]
  exact (State.setCause_one _ _ _).1

theorem State.failedState_timer (s : State) (h : EmitterHandle) (r : Record) :
    ∀ x ∈ (s.failedState h r).timer, x.kind ≠ .startTime h := by
  rw [State.failedState_frame]
  intro x mem
  simpa using (List.mem_filter.1 mem).2

section

variable {s : State} {h : EmitterHandle} {r : Record} (e : s.recordAt h = some r)

include e

theorem State.failedState_recordAt : (s.failedState h r).recordAt h = some r.failed := by
  rw [State.failedState, State.recordAt_setCause, State.recordAt, State.cutOff_putRecord e]
  exact State.recordAt_putRecord e r.failed

theorem State.failedState_otherEntries : s.otherEntries (s.failedState h r) h.slot := by
  rw [State.otherEntries, State.failedState_frame, State.cutOff_putRecord e]
  exact fun k other => Table.get_set_ne _ _ _ _ other

end

theorem State.failedState_slots (s : State) (h : EmitterHandle) (r : Record) :
    (s.failedState h r).slots = (s.releaseSlot h).slots ∧ (s.failedState h r).strayReads = (s.releaseSlot h).strayReads := by
  rw [State.failedState_frame]
  exact s.cutOff_slots h

/-- What the reports find where the record holds no slot. -/
theorem State.takeReports_dropped {s : State} {h : EmitterHandle} (no : ∀ r, s.recordAt h = some r → r.state.holdsSlot = false) :
    s.takeRecovered h = s ∧ s.takeFailure h = s := by
  unfold State.takeRecovered State.takeFailure
  cases e : s.recordAt h with
  | none => exact ⟨rfl, rfl⟩
  | some r => simp [no r e]

/-- Settles O39: by the report, and by whether the record holds a slot. -/
theorem readReportsMarkTheRecord : Obligations.ReadReportsMarkTheRecord := by
  intro s h
  have recovered : .recovered h ∈ s.inFlight →
      exec (.recoveredReport h) s = .next ((s.without (.recovered h)).takeRecovered h) := State.onMessage_taken
  have failure : .failure h ∈ s.inFlight →
      exec (.failureReport h) s = .next ((s.without (.failure h)).takeFailure h) := State.onMessage_taken
  refine ⟨fun r sent e holds => ?_, fun r sent e holds => ?_, fun no => ⟨fun sent => ?_, fun sent => ?_⟩⟩
  · have named : (s.without (.recovered h)).recordAt h = some r := e
    have step := recovered sent
    rw [State.takeRecovered_eq named holds] at step
    refine ⟨_, step, ?_, fun k other => ?_, (State.setCause_one _ _ _).1, ?_⟩
    · rw [State.recordAt_setCause]
      exact State.recordAt_putRecord named _
    · rw [State.setCause_frame]
      exact Table.get_set_ne _ _ _ _ other
    · rw [State.setCause_frame]
      rfl
  · have named : (s.without (.failure h)).recordAt h = some r := e
    have step := failure sent
    rw [State.takeFailure_eq named holds] at step
    obtain ⟨slots, stray⟩ := (s.without (.failure h)).failedState_slots h r
    refine ⟨(s.without (.failure h)).failedState h r, step, State.failedState_recordAt named, fun k other => ?_,
      fun none => ?_, fun n slot => ?_, State.failedState_timer _ h r, fun p => ?_, State.failedState_units _ h r, ?_⟩
    · exact State.failedState_otherEntries named k other
    · have free : (s.without (.failure h)).slotOf h = .none := none
      rw [State.releaseSlot_none free] at slots stray
      exact ⟨slots, stray⟩
    · have held : (s.without (.failure h)).slotOf h = some n := slot
      rw [State.releaseSlot_some held] at slots stray
      exact ⟨(congrArg (·.get n) slots).trans (Table.get_set_self _ _ _),
        fun m other => (congrArg (·.get m) slots).trans (Table.get_set_ne _ _ _ _ other), stray⟩
    · rw [State.failedState_frame]
      exact State.cutOff_members named p
    · rw [State.failedState_frame]
      rfl
  · rw [recovered sent, (State.takeReports_dropped (s := s.without (.recovered h)) no).1]
    rfl
  · rw [failure sent, (State.takeReports_dropped (s := s.without (.failure h)) no).2]
    rfl

end Sys2Proof.Machine
end

section
/-!
SUPPORT. The clip catalog and the load engine: DEFINE_CLIP (R133, R134), LOAD_CLIP (R135, R136), the copy (R137, R138) and
RETIRE_CLIP (R141).
-/

namespace Sys2Proof.Machine

/-- A slot has one accepted handle. -/
theorem State.clipAt_handle {s : State} {a b : ClipHandle} {c d : Clip} (ea : s.clipAt a = some c) (eb : s.clipAt b = some d)
    (slot : a.slot = b.slot) : a = b := by
  have gens := (State.clipAt_some ea).1
  rw [slot, (State.clipAt_some eb).1] at gens
  cases a
  cases b
  simp_all

/-! ## Covered pages (R133, R134) -/

/-- The least of the page numbers that a fold takes up. -/
theorem foldl_minPage_some {n : Nat} (xs : List (Option Nat)) (a : Option Nat) (found : some n = a ∨ some n ∈ xs)
    (least : ∀ m, some m = a ∨ some m ∈ xs → n ≤ m) : xs.foldl minPage a = some n := by
  induction xs generalizing a with
  | nil =>
    obtain here | no := found
    · exact here.symm
    · cases no
  | cons x xs ih =>
    refine ih _ ?_ fun m mem => ?_
    · cases a with
      | none =>
        cases x with
        | none => simpa [minPage] using found
        | some b => simpa [minPage] using found
      | some k =>
        cases x with
        | none => simpa [minPage] using found
        | some b =>
          have le_k := least k (.inl rfl)
          have le_b := least b (.inr (List.mem_cons_self ..))
          simp only [Option.some.injEq, List.mem_cons] at found
          simp only [minPage, Option.some.injEq]
          obtain rfl | rfl | later := found
          · exact .inl (by omega)
          · exact .inl (by omega)
          · exact .inr later
    · obtain here | later := mem
      · cases a with
        | none =>
          cases x with
          | none => cases here
          | some b => exact least m (.inr (here ▸ List.mem_cons_self ..))
        | some k =>
          cases x with
          | none => exact least m (.inl here)
          | some b =>
            have le_k := least k (.inl rfl)
            have le_b := least b (.inr (List.mem_cons_self ..))
            simp only [minPage, Option.some.injEq] at here
            omega
      · exact least m (.inr (List.mem_cons_of_mem _ later))

theorem foldl_minPage_none {xs : List (Option Nat)} (none : ∀ x ∈ xs, x = none) : xs.foldl minPage .none = .none := by
  induction xs with
  | nil => rfl
  | cons x xs ih =>
    rw [List.foldl_cons, none x (List.mem_cons_self ..)]
    exact ih fun y mem => none y (List.mem_cons_of_mem _ mem)

theorem Clip.firstCommon_none {c : Clip} {base count : Nat}
    (apart : c.basePage + c.pageCount ≤ base ∨ base + count ≤ c.basePage) : c.firstCommon base count = none :=
  if_neg (by omega)

/-- The first common page is one of both extents. -/
theorem Clip.firstCommon_mem {c : Clip} {base count n : Nat} (h : c.firstCommon base count = some n) :
    base ≤ n ∧ n < base + count ∧ c.basePage ≤ n ∧ n < c.basePage + c.pageCount := by
  unfold Clip.firstCommon at h
  split at h
  · cases h
    omega
  · cases h

/-- A page of both extents has a first common page at or before it. -/
theorem Clip.firstCommon_le {c : Clip} {base count n : Nat} (low : base ≤ n) (high : n < base + count) (clipLow : c.basePage ≤ n)
    (clipHigh : n < c.basePage + c.pageCount) : ∃ m, c.firstCommon base count = some m ∧ m ≤ n :=
  ⟨_, if_pos (by omega), by omega⟩

theorem State.mem_clipRecords (s : State) (c : Clip) : c ∈ s.clipRecords ↔ ∃ j, (s.clips.get j).clip = some c := by
  simp only [State.clipRecords, List.mem_filterMap, Table.mem_cells]
  constructor
  · rintro ⟨_, ⟨j, rfl⟩, e⟩
    exact ⟨j, e⟩
  · rintro ⟨j, e⟩
    exact ⟨_, ⟨j, rfl⟩, e⟩

theorem State.coveredPage_none {s : State} {base count : Nat}
    (apart : ∀ j c, (s.clips.get j).clip = some c → c.basePage + c.pageCount ≤ base ∨ base + count ≤ c.basePage) :
    s.coveredPage base count = none := by
  refine foldl_minPage_none fun x mem => ?_
  obtain ⟨c, clip, rfl⟩ := List.mem_map.1 mem
  obtain ⟨j, e⟩ := (s.mem_clipRecords c).1 clip
  exact Clip.firstCommon_none (apart j c e)

theorem State.coveredPage_some {s : State} {base count n : Nat} (low : base ≤ n) (high : n < base + count)
    (covered : ∃ j c, (s.clips.get j).clip = some c ∧ c.basePage ≤ n ∧ n < c.basePage + c.pageCount)
    (first : ∀ m j c, base ≤ m → m < n → (s.clips.get j).clip = some c →
      ¬(c.basePage ≤ m ∧ m < c.basePage + c.pageCount)) : s.coveredPage base count = some n := by
  have least : ∀ m, some m ∈ s.clipRecords.map (fun c => c.firstCommon base count) → n ≤ m := by
    intro m mem
    obtain ⟨c, clip, common⟩ := List.mem_map.1 mem
    obtain ⟨j, e⟩ := (s.mem_clipRecords c).1 clip
    obtain ⟨above, -, inClip⟩ := Clip.firstCommon_mem common
    by_contra before
    exact first m j c above (by omega) e inClip
  obtain ⟨j, c, e, clipLow, clipHigh⟩ := covered
  obtain ⟨m, common, le⟩ := Clip.firstCommon_le low high clipLow clipHigh
  have mem : some m ∈ s.clipRecords.map (fun c => c.firstCommon base count) :=
    List.mem_map.2 ⟨c, (s.mem_clipRecords c).2 ⟨j, e⟩, common⟩
  have same : m = n := Nat.le_antisymm le (least m mem)
  subst same
  refine foldl_minPage_some _ _ (.inr mem) fun k here => ?_
  obtain no | mem := here
  · cases no
  · exact least k mem

theorem State.freeClip_first {s : State} {i : ClipNo} (free : (s.clips.get i).clip = none)
    (first : ∀ j, j < i → (s.clips.get j).clip.isSome = true) : s.freeClip = some i :=
  find_finRange_first (by simp [free]) fun j lt => by simpa using first j lt

/-- Settles O40: by whether a page of the extent is covered. -/
theorem defineClipTakesAnEmptySlot : Obligations.DefineClipTakesAnEmptySlot := by
  intro s l q i handed one most extent long fits slow fast free first
  have ranges : defineClipRanges q = true := by
    have last : q.basePage ≤ 65535 := by omega
    simp [defineClipRanges, Config.pageSamples, one, most, last, extent, long, fits, slow, fast]
  refine ⟨fun apart => ?_, fun n low high covered before => ?_⟩
  · have checks : s.checkDefineClip q = .ok i := by
      simp [State.checkDefineClip, need, want, ranges, State.coveredPage_none apart, State.freeClip_first free first, bind,
        Except.bind]
    exact ⟨_, _, _, exec_accepted (exec_defineClip_handed handed) checks, rfl, Table.get_set_self _ _ _, rfl, rfl, rfl, rfl, rfl,
      rfl, rfl, rfl, rfl, rfl, rfl, rfl, rfl, fun k other => Table.get_set_ne _ _ _ _ other, rfl⟩
  · refine exec_refused (exec_defineClip_handed handed) ?_
    simp [State.checkDefineClip, need, ranges, State.coveredPage_some low high covered before, bind, Except.bind]

/-! ## LOAD_CLIP (R135, R136) -/

section

variable {s : State} {l : Lane} {q : LoadClipReq} {c : Clip} (e : s.clipAt q.clip.clip = some c) (may : l = 0 ∨ l = c.lane)
  (aligned : q.source.toNat % 4 = 0) (fits : q.source.toNat + 4 * c.length ≤ 2 ^ 64)

include e may aligned fits

/-- The checks of a LOAD_CLIP whose source and handle are good are those of the clip's state and of the window. -/
theorem State.checkLoadClip_eq : s.checkLoadClip l q = (do
    checkLoadable c
    need (windowAllows (s.units.get l).window q.source.toNat (4 * c.length)) .windowViolation
    return (q.clip.clip, c)) := by
  have inRange : decide (q.source.toNat + 4 * c.length ≤ 2 ^ 64) = true := decide_eq_true fits
  have whole : (q.source.toNat % 4 == 0) = true := beq_iff_eq.2 aligned
  unfold State.checkLoadClip
  rw [need_ok whole, State.findClip_ok e]
  simp only [bind, Except.bind, inRange, need_ok, laneMay_true may]

theorem State.checkLoadClip_accepts (loadable : c.state = .defined ∨ c.state = .ready ∧ c.refs = 0)
    (window : windowAllows (s.units.get l).window q.source.toNat (4 * c.length) = true) :
    s.checkLoadClip l q = .ok (q.clip.clip, c) := by
  have passes : checkLoadable c = .ok () := by
    obtain state | ⟨state, refs⟩ := loadable
    · simp [checkLoadable, state]
    · simp [checkLoadable, state, refs, need]
  rw [State.checkLoadClip_eq e may aligned fits, passes]
  simp [need, window, bind, Except.bind, pure, Except.pure]

theorem State.checkLoadClip_refuses {a : Answer} (fails : checkLoadable c = .error a) : s.checkLoadClip l q = .error a := by
  rw [State.checkLoadClip_eq e may aligned fits, fails]
  rfl

end

/-- A LOADING clip with its load in the queue, before the load engine is asked. -/
def State.queueLoad (s : State) (l : Lane) (q : LoadClipReq) (h : ClipHandle) (c : Clip) : State :=
  { s.putClip h.slot { c with state := .loading, corrected := 0, uncorrectable := 0, computedCrc := none } with
    loadQueue := s.loadQueue ++ [⟨h, l, q.source, q.check⟩] }

theorem State.acceptLoad_eq (s : State) (l : Lane) (q : LoadClipReq) (h : ClipHandle) (c : Clip) :
    s.acceptLoad l q h c = (s.queueLoad l q h c).dispatchLoad.hold l := rfl

theorem State.acceptLoad_frame (s : State) (l : Lane) (q : LoadClipReq) (h : ClipHandle) (c : Clip) :
    s.acceptLoad l q h c = { s with
      clips := (s.queueLoad l q h c).clips
      units := s.units.set l { s.units.get l with state := .active .held }
      loadQueue := (s.queueLoad l q h c).dispatchLoad.loadQueue, copy := (s.queueLoad l q h c).dispatchLoad.copy
      nextTag := (s.queueLoad l q h c).dispatchLoad.nextTag, sent := (s.queueLoad l q h c).dispatchLoad.sent } := by
  rw [State.acceptLoad_eq, State.dispatchLoad_frame]
  rfl

/-- Settles O41: by the clip's state, and by whether the engine is IDLE. -/
theorem loadClipHoldsTheUnit : Obligations.LoadClipHoldsTheUnit := by
  intro s l q h c handed names e may aligned fits window
  subst names
  refine ⟨fun loadable => ?_, fun ready held => ?_, fun busy => ?_⟩
  · have step := exec_loadClip_accepted handed (State.checkLoadClip_accepts e may aligned fits loadable window)
    have clip : (s.queueLoad l q q.clip.clip c).clipAt q.clip.clip =
        some { c with state := .loading, corrected := 0, uncorrectable := 0, computedCrc := none } :=
      State.clipAt_putClip e _
    refine ⟨_, step, ?_⟩
    rw [State.acceptLoad_frame]
    refine ⟨clip, State.putClip_other s _ _, Table.get_set_self _ _ _, fun k other => Table.get_set_ne _ _ _ _ other,
      fun idle empty => ?_, fun x busy => ?_, rfl⟩
    · have idle' : (s.queueLoad l q q.clip.clip c).copy = none := idle
      have queue : (s.queueLoad l q q.clip.clip c).loadQueue = [⟨q.clip.clip, l, q.source, q.check⟩] := by
        rw [State.queueLoad, empty]
        rfl
      have taken := State.dispatchLoad_idle idle' queue
      refine ⟨?_, ?_, fun long => State.dispatchLoad_reads (c := { c with
        state := .loading, corrected := 0, uncorrectable := 0, computedCrc := none }) idle' queue clip long⟩
      · rw [taken]
        rfl
      · rw [taken]
    · have busy' : (s.queueLoad l q q.clip.clip c).copy = some x := busy
      rw [State.dispatchLoad_busy busy']
      exact ⟨busy, rfl, rfl⟩
  · refine exec_loadClip_refused handed (State.checkLoadClip_refuses e may aligned fits ?_)
    have used : (c.refs == 0) = false := by simpa using Nat.pos_iff_ne_zero.1 held
    simp only [checkLoadable, ready, need_error used]
    rfl
  · refine exec_loadClip_refused handed (State.checkLoadClip_refuses e may aligned fits ?_)
    obtain state | state := busy
    all_goals simp [checkLoadable, state, Answer.refuse]

/-! ## The copy (R137, R138) -/

theorem State.currentCopy_some {s : State} {x : Copy} {c : Clip} (copy : s.copy = some x) (clip : s.clipAt x.load.clip = some c) :
    s.currentCopy x.tag = some (x, c) := by
  simp [State.currentCopy, copy, clip]

theorem State.currentCopy_none {s : State} {x : Copy} {tag : Nat} (copy : s.copy = some x) (other : tag ≠ x.tag) :
    s.currentCopy tag = none := by
  simp [State.currentCopy, copy, other.symm]

theorem State.copyBytes_frame (s : State) (x : Copy) (c : Clip) (bytes : List Byte) :
    s.copyBytes x c bytes = { s with
      clipMem := (s.copyBytes x c bytes).clipMem
      copy := some { x with copied := x.copied + bytes.length / 4, crc := bytes.foldl crcByte x.crc }
      sent := (s.copyBytes x c bytes).sent } := by
  rw [State.copyBytes, State.issueHostRead_eq]

/-- What is still to be copied is asked for next. -/
theorem State.copyBytes_sent {s : State} {x : Copy} {c : Clip} (clip : s.clipAt x.load.clip = some c) (bytes : List Byte) :
    (s.copyBytes x c bytes).sent = if x.copied + bytes.length / 4 < c.length then s.sent ++
      [.hostRead x.tag (x.load.source + BitVec.ofNat 64 (4 * (x.copied + bytes.length / 4)))
        (4 * (c.length - (x.copied + bytes.length / 4)))] else s.sent := by
  have same : ∀ t : State, t.clips = s.clips → t.clipAt x.load.clip = some c := fun t clips => by
    rw [State.clipAt, clips]
    exact clip
  unfold State.copyBytes State.issueHostRead
  simp only
  rw [same _ (by rfl)]
  simp only
  split
  · rfl
  · rfl

/-- The copied bytes stand in clip memory, from the next position on. -/
theorem State.clipByte_copied {s : State} {x : Copy} {c : Clip} {bytes : List Byte} {k : Nat} {b : Byte} (e : bytes[k]? = some b) :
    (s.copyBytes x c bytes).clipByte (c.basePage * 65536 + 4 * x.copied + k) = b := by
  have lt : k < bytes.length := (List.getElem?_eq_some_iff.1 e).1
  rw [State.clipByte_copyBytes, sampleAddr_eq, if_pos ⟨by omega, by omega⟩, Nat.add_sub_cancel_left, e]

theorem State.clipByte_uncopied {s : State} {x : Copy} {c : Clip} {bytes : List Byte} {a : Nat}
    (outside : a < c.basePage * 65536 + 4 * x.copied ∨ c.basePage * 65536 + 4 * x.copied + bytes.length ≤ a) :
    (s.copyBytes x c bytes).clipByte a = s.clipByte a := by
  rw [State.clipByte_copyBytes, sampleAddr_eq, if_neg (by omega)]
  rfl

/-- The clip's state and CRC, and the lane's answer, once a copy has ended (R138). -/
def copyEnd (x : Copy) (expected : BitVec 32) (failed : Bool) : ClipState × Option (BitVec 32) × Answer :=
  if failed then (.defined, none, ⟨.linkReadError, .copied x.copied⟩)
  else ((copyOutcome x.load.check (crcFinal x.crc) expected).1, some (crcFinal x.crc),
    (copyOutcome x.load.check (crcFinal x.crc) expected).2)

/-- The state in which the engine, now IDLE, takes its next load. -/
def State.copyEnded (s : State) (x : Copy) (c : Clip) (o : ClipState × Option (BitVec 32) × Answer) : State :=
  { s.putClip x.load.clip.slot { c with state := o.1, computedCrc := o.2.1 } with
    copy := none, inFlight := s.inFlight ++ [.heldDone x.load.lane o.2.2 x.copied] }

theorem State.endCopy_eq {s : State} {x : Copy} {c : Clip} (clip : s.clipAt x.load.clip = some c) (loading : c.state = .loading)
    (failed : Bool) : s.endCopy x c failed = (s.copyEnded x c (copyEnd x c.expectedCrc failed)).dispatchLoad := by
  have same : ({ s with copy := none } : State).clipAt x.load.clip = some c := clip
  cases failed
  all_goals
    simp only [State.endCopy, State.leaveLoading_loading same loading]
    rfl

/-- The load queue's clips have the lengths that they had. -/
theorem State.clipAt_copyEnded {s : State} {x : Copy} {c : Clip} (clip : s.clipAt x.load.clip = some c)
    (o : ClipState × Option (BitVec 32) × Answer) {h : ClipHandle} {d : Clip} (e : s.clipAt h = some d) :
    ∃ d', (s.copyEnded x c o).clipAt h = some d' ∧ d'.length = d.length := by
  have same : ∀ t u : State, t.clips = u.clips → t.clipAt h = u.clipAt h := fun t u clips => by
    rw [State.clipAt, clips]
    rfl
  rw [same (s.copyEnded x c o) (s.putClip x.load.clip.slot { c with state := o.1, computedCrc := o.2.1 }) rfl]
  by_cases slot : h.slot = x.load.clip.slot
  · have handle : h = x.load.clip := State.clipAt_handle e clip slot
    subst handle
    obtain rfl : c = d := Option.some.inj (clip.symm.trans e)
    exact ⟨_, State.clipAt_putClip clip _, rfl⟩
  · refine ⟨d, ?_, rfl⟩
    rw [State.clipAt, State.putClip_other s _ _ h.slot slot]
    exact e

theorem State.dispatchLoad_done {s : State} (idle : s.copy = none) (empty : s.loadQueue = []) :
    s.dispatchLoad.copy = none ∧ s.dispatchLoad.loadQueue = [] ∧ s.dispatchLoad.sent = s.sent := by
  rw [State.dispatchLoad_empty empty]
  exact ⟨idle, empty, rfl⟩

/-- Settles O42: the bytes of a completion and the outcomes of a copy's end. -/
theorem aCopyFillsTheClip : Obligations.ACopyFillsTheClip := by
  refine ⟨fun s x c bytes copy clip => ⟨fun whole most => ?_, fun tag other => ?_⟩,
    fun s x c crc copy clip loading final => ⟨fun failed ends => ?_, fun short => ?_⟩⟩
  · have step : exec (.copyHostReadDone x.tag bytes) s = .next (s.copyBytes x c bytes) := by
      simp only [exec, execCopyHostReadDone, State.currentCopy_some copy clip]
      exact if_pos ⟨whole, most⟩
    refine ⟨_, _, step, ?_, rfl, fun k b => State.clipByte_copied, fun a => State.clipByte_uncopied, fun more => ?_,
      fun done => ?_, ?_⟩
    · rw [State.copyBytes_frame]
    · rw [State.copyBytes_sent clip, if_pos more]
    · rw [State.copyBytes_sent clip, if_neg (by omega)]
    · rw [State.copyBytes_frame]
  · simp only [exec, execCopyHostReadDone, State.currentCopy_none copy other]
  · have step : exec (.loadCopyEnd x.tag failed) s = .next (s.endCopy x c failed) := by
      simp only [exec, execLoadCopyEnd, State.currentCopy_some copy clip]
      exact if_pos ends
    rw [State.endCopy_eq clip loading] at step
    have ended : ∀ o, (s.copyEnded x c o).dispatchLoad.clipAt x.load.clip =
        some { c with state := o.1, computedCrc := o.2.1 } ∧
        (s.copyEnded x c o).dispatchLoad.inFlight = s.inFlight ++ [.heldDone x.load.lane o.2.2 x.copied] := fun o => by
      rw [State.dispatchLoad_frame]
      exact ⟨State.clipAt_putClip clip _, rfl⟩
    have done : crcFinal x.crc = crc := final.symm
    refine ⟨_, step, fun yes => ?_, fun no good => ?_, fun no check bad => ?_, ?_, fun empty => ?_, fun y ys queue => ?_, ?_⟩
    · subst yes
      exact ended _
    · subst no
      have outcome : copyEnd x c.expectedCrc false = (.ready, some crc, ⟨.done, .crc crc⟩) := by
        have passes : ¬(x.load.check = true ∧ crc ≠ c.expectedCrc) := by
          rintro ⟨check, bad⟩
          obtain off | same := good
          · rw [off] at check
            cases check
          · exact bad same
        simp only [copyEnd, done, copyOutcome, if_neg passes]
        rfl
      rw [outcome]
      exact ended _
    · subst no
      have outcome : copyEnd x c.expectedCrc false = (.defined, some crc, ⟨.crcMismatch, .crcs crc c.expectedCrc⟩) := by
        simp only [copyEnd, done, copyOutcome, if_pos (And.intro check bad)]
        rfl
      rw [outcome]
      exact ended _
    · rw [State.dispatchLoad_frame]
      exact s.putClip_other _ _
    · exact State.dispatchLoad_done (s := s.copyEnded x c _) rfl empty
    · have queued : (s.copyEnded x c (copyEnd x c.expectedCrc failed)).loadQueue = y :: ys := queue
      have taken := State.dispatchLoad_idle (s := s.copyEnded x c (copyEnd x c.expectedCrc failed)) rfl queued
      refine ⟨?_, ?_, fun d e long => ?_⟩
      · rw [taken]
        rfl
      · rw [taken]
      · obtain ⟨d', e', same⟩ := State.clipAt_copyEnded clip (copyEnd x c.expectedCrc failed) e
        rw [← same] at long ⊢
        exact State.dispatchLoad_reads rfl queued e' long
    · rw [State.dispatchLoad_frame]
      rfl
  · simp only [exec, execLoadCopyEnd, State.currentCopy_some copy clip]
    refine if_neg ?_
    simp [short]

/-! ## RETIRE_CLIP (R141) -/

theorem State.checkRetireClip_accepts {s : State} {l : Lane} {raw : RawHandle} {c : Clip} (e : s.clipAt raw.clip = some c)
    (may : l = 0 ∨ l = c.lane) : s.checkRetireClip l raw = .ok (raw.clip, c) := by
  simp [State.checkRetireClip, State.findClip_ok e, need, laneMay_true may, bind, Except.bind, pure, Except.pure]

theorem State.emptyClip_one (s : State) (h : ClipHandle) :
    (s.emptyClip h).clips.get h.slot = { s.clips.get h.slot with clip := none, note := none } ∧ (s.emptyClip h).clipAt h = none ∧
      s.otherClips (s.emptyClip h) h.slot := by
  have slot : (s.emptyClip h).clips.get h.slot = { s.clips.get h.slot with clip := none, note := none } :=
    Table.get_set_self _ _ _
  refine ⟨slot, ?_, fun k other => Table.get_set_ne _ _ _ _ other⟩
  unfold State.clipAt
  simp only [slot, ite_self]

/-- The state in which the engine, rid of the load of a clip, takes its next one. -/
def State.rid (s : State) (h : ClipHandle) (l : Lane) (n : Nat) : State :=
  (((s.emptyClip h).dropLoad fun y => y.clip == h).completeHeld l ⟨.aborted, .copied n⟩ n)

theorem State.abandonLoadOf_some {s : State} {h : ClipHandle} {y : Load} {n : Nat}
    (load : s.findLoad (fun x => x.clip == h) = some (y, n)) :
    (s.emptyClip h).abandonLoadOf h = (s.rid h y.lane n).dispatchLoad := by
  have same : (s.emptyClip h).findLoad (fun x => x.clip == h) = some (y, n) := load
  simp only [State.abandonLoadOf, same]
  rfl

theorem State.abandonLoadOf_none {s : State} {h : ClipHandle} (load : s.findLoad (fun x => x.clip == h) = none) :
    (s.emptyClip h).abandonLoadOf h = s.emptyClip h := by
  have same : (s.emptyClip h).findLoad (fun x => x.clip == h) = none := load
  simp only [State.abandonLoadOf, same]

theorem State.findLoad_copying {s : State} {x : Copy} {sel : Load → Bool} (copy : s.copy = some x) (yes : sel x.load = true) :
    s.findLoad sel = some (x.load, x.copied) := by
  simp [State.findLoad, copy, yes]

theorem State.findLoad_queued {s : State} {y : Load} {sel : Load → Bool} (copy : ∀ x, s.copy = some x → sel x.load = false)
    (queue : s.loadQueue.find? sel = some y) : s.findLoad sel = some (y, 0) := by
  cases e : s.copy with
  | none => simp [State.findLoad, e, queue]
  | some x => simp [State.findLoad, e, queue, copy x e]

/-- Where no load is found, neither the engine nor the queue has one. -/
theorem State.findLoad_absent {s : State} {sel : Load → Bool} (none : s.findLoad sel = none) :
    (∀ x ∈ s.loadQueue, sel x = false) ∧ ∀ x, s.copy = some x → sel x.load = false := by
  unfold State.findLoad at none
  split at none
  · rename_i x copy
    split at none
    · cases none
    · rename_i other
      rw [Option.map_eq_none_iff, List.find?_eq_none] at none
      refine ⟨fun y mem => Bool.eq_false_iff.2 (none y mem), fun y hy => ?_⟩
      obtain rfl : x = y := Option.some.inj (copy.symm.trans hy)
      exact Bool.eq_false_iff.2 other
  · rename_i copy
    rw [Option.map_eq_none_iff, List.find?_eq_none] at none
    refine ⟨fun y mem => Bool.eq_false_iff.2 (none y mem), fun y hy => ?_⟩
    rw [copy] at hy
    cases hy

theorem State.rid_frame (s : State) (h : ClipHandle) (l : Lane) (n : Nat) :
    s.rid h l n = { s with
      clips := (s.emptyClip h).clips, inFlight := s.inFlight ++ [.heldDone l ⟨.aborted, .copied n⟩ n]
      loadQueue := s.loadQueue.filter fun y => y.clip != h, copy := s.copy.filter fun y => y.load.clip != h } := rfl

/-- The clips of the other loads stand. -/
theorem State.clipAt_rid {s : State} {h : ClipHandle} {c d : Clip} (e : s.clipAt h = some c) {z : ClipHandle} (other : z ≠ h)
    (ez : s.clipAt z = some d) (l : Lane) (n : Nat) : (s.rid h l n).clipAt z = some d := by
  have slot : z.slot ≠ h.slot := fun same => other (State.clipAt_handle ez e same)
  rw [State.rid_frame, State.clipAt]
  simp only [(s.emptyClip_one h).2.2 z.slot slot]
  exact ez

/-- What the retirement of a LOADING clip leaves of the loads. -/
theorem State.abandonLoadOf_all (s : State) (h : ClipHandle) :
    (∀ x ∈ ((s.emptyClip h).abandonLoadOf h).loadQueue, x.clip ≠ h) ∧
      ∀ x, ((s.emptyClip h).abandonLoadOf h).copy = some x → x.load.clip ≠ h := by
  cases load : s.findLoad (fun x => x.clip == h) with
  | none =>
    obtain ⟨queue, copy⟩ := State.findLoad_absent load
    rw [State.abandonLoadOf_none load]
    exact ⟨fun x mem => by simpa using queue x mem, fun x hx => by simpa using copy x hx⟩
  | some yn =>
    rw [State.abandonLoadOf_some load]
    refine State.dispatchLoad_all (P := fun x => x.clip ≠ h) (fun x mem => ?_) fun x hx => ?_
    · simpa using (List.mem_filter.1 mem).2
    · simpa using (Option.filter_eq_some_iff.1 hx).2

theorem State.abandonLoadOf_frame (s : State) (h : ClipHandle) :
    (s.emptyClip h).abandonLoadOf h = { s with
      clips := (s.emptyClip h).clips, inFlight := ((s.emptyClip h).abandonLoadOf h).inFlight
      copy := ((s.emptyClip h).abandonLoadOf h).copy, loadQueue := ((s.emptyClip h).abandonLoadOf h).loadQueue
      nextTag := ((s.emptyClip h).abandonLoadOf h).nextTag, sent := ((s.emptyClip h).abandonLoadOf h).sent } := by
  cases load : s.findLoad (fun x => x.clip == h) with
  | none => rw [State.abandonLoadOf_none load]; rfl
  | some yn => rw [State.abandonLoadOf_some load, State.dispatchLoad_frame, State.rid_frame]

/-- The effects of a RETIRE_CLIP by the state of the clip. -/
theorem State.retireClipEffect_emptied {s : State} {h : ClipHandle} {c : Clip}
    (free : c.state = .defined ∨ c.state = .ready ∧ c.refs = 0) :
    s.retireClipEffect (h, c) = (s.emptyClip h, ⟨.done, .clipRetired .immediate 0⟩) := by
  obtain state | ⟨state, refs⟩ := free
  · simp [State.retireClipEffect, state, Answer.done]
  · simp [State.retireClipEffect, state, refs, Answer.done]

/-- Settles O43: by the clip's state, and for a LOADING one by where its load stands. -/
theorem retireClipActsByState : Obligations.RetireClipActsByState := by
  intro s l raw h c handed names e may
  subst names
  have checks := State.checkRetireClip_accepts e may
  have step := exec_accepted (exec_retireClip_handed handed) checks
  obtain ⟨slot, gone, others⟩ := s.emptyClip_one raw.clip
  refine ⟨fun free => ?_, fun loading => ?_, fun ready used => ?_, fun draining => ?_⟩
  · rw [State.retireClipEffect_emptied free] at step
    exact ⟨_, step, slot, gone, others, rfl⟩
  · have effect : s.retireClipEffect (raw.clip, c) =
        ((s.emptyClip raw.clip).abandonLoadOf raw.clip, ⟨.done, .clipRetired .immediate 0⟩) := by
      simp [State.retireClipEffect, loading, Answer.done]
    rw [effect] at step
    obtain ⟨queueLeft, copyLeft⟩ := s.abandonLoadOf_all raw.clip
    refine ⟨_, step, ?_, ?_, fun y n rest left whose => ?_, fun x y copy other queue => ?_, queueLeft, copyLeft, ?_⟩
    · rw [State.abandonLoadOf_frame]
      exact slot
    · rw [State.abandonLoadOf_frame]
      exact others
    · have load : s.findLoad (fun x => x.clip == raw.clip) = some (y, n) ∧
          s.copy.filter (fun y => y.load.clip != raw.clip) = none := by
        obtain ⟨⟨x, copy, rfl, rfl⟩, same⟩ | ⟨copy, queue, rfl⟩ := whose
        · exact ⟨State.findLoad_copying copy (by simp [same]), by simp [copy, Option.filter, same]⟩
        · refine ⟨State.findLoad_queued (fun x hx => ?_) queue, by rw [copy]; rfl⟩
          rw [copy] at hx
          cases hx
      obtain ⟨load, idle⟩ := load
      have idle' : (s.rid raw.clip y.lane n).copy = none := idle
      rw [State.abandonLoadOf_some load]
      refine ⟨?_, fun empty => ?_, fun z zs queue => ?_⟩
      · rw [State.dispatchLoad_frame]
        rfl
      · have queue : (s.rid raw.clip y.lane n).loadQueue = [] := left.symm.trans empty
        rw [State.dispatchLoad_empty queue]
        exact ⟨idle', queue, rfl, rfl⟩
      · have queued : (s.rid raw.clip y.lane n).loadQueue = z :: zs := left.symm.trans queue
        have taken := State.dispatchLoad_idle idle' queued
        refine ⟨?_, ?_, ?_, fun d ez long => ?_⟩
        · rw [taken]
          rfl
        · rw [taken]
        · rw [taken]
          rfl
        · have other : z.clip ≠ raw.clip := by
            have mem : z ∈ s.loadQueue.filter fun z => z.clip != raw.clip := by
              rw [← left, queue]
              exact List.mem_cons_self ..
            simpa using (List.mem_filter.1 mem).2
          exact State.dispatchLoad_reads idle' queued (State.clipAt_rid e other ez _ _) long
    · have load : s.findLoad (fun x => x.clip == raw.clip) = some (y, 0) := by
        refine State.findLoad_queued (fun z hz => ?_) queue
        obtain rfl : x = z := Option.some.inj (copy.symm.trans hz)
        simpa using other
      have busy : (s.rid raw.clip y.lane 0).copy = some x := by
        rw [State.rid_frame]
        simp [copy, Option.filter, other]
      rw [State.abandonLoadOf_some load, State.dispatchLoad_busy busy]
      exact ⟨rfl, busy.trans copy.symm, rfl, rfl, rfl⟩
    · rw [State.abandonLoadOf_frame]
  · have effect : s.retireClipEffect (raw.clip, c) =
        (s.putClip raw.clip.slot { c with state := .draining }, ⟨.done, .clipRetired .deferred c.refs⟩) := by
      simp [State.retireClipEffect, ready, Nat.pos_iff_ne_zero.1 used, Answer.done]
    rw [effect] at step
    exact ⟨_, step, State.clipAt_putClip e _, s.putClip_other _ _, rfl⟩
  · have effect : s.retireClipEffect (raw.clip, c) = (s, ⟨.done, .clipRetired .deferred c.refs⟩) := by
      simp [State.retireClipEffect, draining, Answer.done]
    rwa [effect] at step

end Sys2Proof.Machine
end

section
/-!
SUPPORT. The fade curve (R37), the jump of scene time (R46, R47), going ON_AIR (R74 to R76) and the edge's work (R61, R63).
-/

namespace Sys2Proof.Machine

/-! ## The fade curve (R37) -/

/-- A value part of the way from `a` to `b`, the fraction dropped, lies between them. -/
theorem lerp_between (a b e : Nat) {span : Nat} (part : e < span) :
    (min a b : Nat) ≤ (a : Int) + (((b : Int) - a) * e).tdiv span ∧ (a : Int) + (((b : Int) - a) * e).tdiv span ≤ (max a b : Nat) := by
  have short : ∀ d : Nat, (((d : Int) * e).tdiv span) = ((d * e / span : Nat) : Int) ∧ d * e / span ≤ d := fun d => by
    refine ⟨?_, Nat.div_le_of_le_mul ?_⟩
    · rw [Int.tdiv_eq_ediv_of_nonneg (by positivity)]
      push_cast
      rfl
    · rw [Nat.mul_comm span]
      exact Nat.mul_le_mul_left d part.le
  obtain le | lt := Nat.le_total a b
  · obtain ⟨value, bound⟩ := short (b - a)
    rw [Int.ofNat_sub le] at value
    rw [value]
    generalize (b - a) * e / span = q at bound
    omega
  · obtain ⟨value, bound⟩ := short (a - b)
    have flip : ((b : Int) - a) * e = -(((a - b : Nat) : Int) * e) := by
      rw [Int.ofNat_sub lt]
      ring
    rw [flip, Int.neg_tdiv, value]
    generalize (a - b) * e / span = q at bound
    omega

section

variable {c : FadeCurve} {p : FadePos}

/-- Where the curve goes on, the gain is that of the point and a part of the way to the next one. -/
theorem FadeCurve.gain_between {a b : Nat} (here : c.points[p.index]? = some a)
    (next : p.index + 1 < c.points.length ∧ c.points[p.index + 1]? = some b ∨
      p.index + 1 = c.points.length ∧ c.mode = .cycle ∧ c.points[0]? = some b) (part : p.elapsed < c.step * 10000) :
    (c.gain p : Int) = a + (((b : Int) - a) * p.elapsed).tdiv (c.step * 10000) ∧ min a b ≤ c.gain p ∧ c.gain p ≤ max a b := by
  have value : c.gain p = ((a : Int) + (((b : Int) - a) * p.elapsed).tdiv ((c.step * 10000 : Nat) : Int)).toNat := by
    obtain ⟨inside, there⟩ | ⟨last, cycle, there⟩ := next
    · have notLast : ¬ c.points.length ≤ p.index + 1 := by omega
      simp [FadeCurve.gain, FadeCurve.stepTicks, notLast, List.getD_eq_getElem?_getD, here, there]
    · have isLast : c.points.length ≤ p.index + 1 := by omega
      simp [FadeCurve.gain, FadeCurve.stepTicks, isLast, cycle, List.getD_eq_getElem?_getD, here, there]
  obtain ⟨low, high⟩ := lerp_between a b p.elapsed part
  rw [value]
  push_cast at low high ⊢
  omega

theorem FadeCurve.gain_last {a : Nat} (here : c.points[p.index]? = some a) (last : p.index + 1 = c.points.length)
    (once : c.mode = .once) : c.gain p = a := by
  have isLast : c.points.length ≤ p.index + 1 := by omega
  simp [FadeCurve.gain, isLast, once, List.getD_eq_getElem?_getD, here]

theorem FadeCurve.advance_stands (last : p.index + 1 = c.points.length) (once : c.mode = .once) : c.advance p = p := by
  have isLast : c.points.length ≤ p.index + 1 := by omega
  simp [FadeCurve.advance, isLast, once]

/-- Within a step the elapsed time rises. -/
theorem FadeCurve.advance_within (moves : p.index + 1 < c.points.length ∨ c.mode = .cycle)
    (more : p.elapsed + 1 < c.step * 10000) : c.advance p = ⟨p.index, p.elapsed + 1⟩ := by
  have within : p.elapsed + 1 < c.stepTicks := more
  obtain inside | cycle := moves
  · have notLast : ¬ c.points.length ≤ p.index + 1 := by omega
    simp [FadeCurve.advance, within, notLast]
  · simp [FadeCurve.advance, within, cycle]

theorem FadeCurve.advance_next (inside : p.index + 1 < c.points.length) (full : p.elapsed + 1 = c.step * 10000) :
    c.advance p = ⟨p.index + 1, 0⟩ := by
  have ends : ¬ p.elapsed + 1 < c.stepTicks := Nat.not_lt.2 full.ge
  have notLast : ¬ c.points.length ≤ p.index + 1 := by omega
  simp [FadeCurve.advance, ends, notLast]

theorem FadeCurve.advance_around (last : p.index + 1 = c.points.length) (cycle : c.mode = .cycle)
    (full : p.elapsed + 1 = c.step * 10000) : c.advance p = ⟨0, 0⟩ := by
  have ends : ¬ p.elapsed + 1 < c.stepTicks := Nat.not_lt.2 full.ge
  have isLast : c.points.length ≤ p.index + 1 := by omega
  simp [FadeCurve.advance, ends, isLast, cycle]

end

/-- Settles O29: by whether the position is at the last point, and there by the mode. -/
theorem aFadeGainStaysOnItsCurve : Obligations.AFadeGainStaysOnItsCurve := by
  intro c p two step gains inside part
  obtain ⟨a, here⟩ : ∃ a, c.points[p.index]? = some a := ⟨_, List.getElem?_eq_getElem inside⟩
  have aLow : a ≤ 1024 := gains a (List.mem_of_getElem? here)
  have cases : (∃ b, p.index + 1 < c.points.length ∧ c.points[p.index + 1]? = some b) ∨
      (∃ b, p.index + 1 = c.points.length ∧ c.mode = .cycle ∧ c.points[0]? = some b) ∨
      p.index + 1 = c.points.length ∧ c.mode = .once := by
    obtain more | last : p.index + 1 < c.points.length ∨ p.index + 1 = c.points.length := by omega
    · exact .inl ⟨_, more, List.getElem?_eq_getElem more⟩
    · cases mode : c.mode with
      | once => exact .inr (.inr ⟨last, rfl⟩)
      | cycle => exact .inr (.inl ⟨_, last, rfl, List.getElem?_eq_getElem (by omega)⟩)
  have between : (∃ b : Nat, b ≤ 1024 ∧ (c.gain p : Int) = a + (((b : Int) - a) * p.elapsed).tdiv (c.step * 10000) ∧
      c.gain p ≤ max a b) ∨ c.gain p = a := by
    obtain ⟨b, next⟩ | ⟨b, next⟩ | ⟨last, once⟩ := cases
    · obtain ⟨value, -, high⟩ := FadeCurve.gain_between here (.inl next) part
      exact .inl ⟨b, gains b (List.mem_of_getElem? next.2), value, high⟩
    · obtain ⟨value, -, high⟩ := FadeCurve.gain_between here (.inr next) part
      exact .inl ⟨b, gains b (List.mem_of_getElem? next.2.2), value, high⟩
    · exact .inr (FadeCurve.gain_last here last once)
  have moved : (c.advance p).index < c.points.length ∧ (c.advance p).elapsed < c.step * 10000 := by
    by_cases more : p.elapsed + 1 < c.step * 10000
    · obtain ⟨b, next, -⟩ | ⟨b, last, cycle, -⟩ | ⟨last, once⟩ := cases
      · rw [FadeCurve.advance_within (.inl next) more]
        exact ⟨inside, more⟩
      · rw [FadeCurve.advance_within (.inr cycle) more]
        exact ⟨inside, more⟩
      · rw [FadeCurve.advance_stands last once]
        exact ⟨inside, part⟩
    · have full : p.elapsed + 1 = c.step * 10000 := by omega
      have positive : 0 < c.step * 10000 := by omega
      obtain ⟨b, next, -⟩ | ⟨b, last, cycle, -⟩ | ⟨last, once⟩ := cases
      · rw [FadeCurve.advance_next next full]
        exact ⟨next, positive⟩
      · rw [FadeCurve.advance_around last cycle full]
        exact ⟨Nat.zero_lt_of_lt inside, positive⟩
      · rw [FadeCurve.advance_stands last once]
        exact ⟨inside, part⟩
  refine ⟨moved.1, moved.2, ?_, fun zero => ?_, fun a' b here' next => FadeCurve.gain_between here' next part,
    fun last once => ?_, fun next more => FadeCurve.advance_within (.inl next) more, FadeCurve.advance_next,
    FadeCurve.advance_stands, fun last cycle more => FadeCurve.advance_within (.inr cycle) more, FadeCurve.advance_around⟩
  · obtain ⟨b, bLow, -, high⟩ | same := between
    · omega
    · omega
  · obtain ⟨b, -, value, -⟩ | same := between
    · rw [zero] at value
      have same : c.gain p = a := by simpa using value
      rw [same, here]
    · rw [same, here]
  · rw [FadeCurve.gain_last here last once, here]

/-! ## The jump of scene time (R46, R47) -/

/-- An entry whose record is carried across a jump; none of them holds a start-time expiry. -/
def Entry.jump (e : Entry) (d : Int) : Entry := { e with record := e.record.map fun r => r.jump false d }

theorem State.jumpEntry_eq {s : State} (absent : ∀ h, s.holdsStartTime h = false) (d : Int) (i : EntryNo) :
    s.jumpEntry d i = { s with entries := s.entries.set i ((s.entries.get i).jump d) } := by
  unfold State.jumpEntry State.handleAt
  cases record : (s.entries.get i).record with
  | none =>
    have same : (s.entries.get i).jump d = s.entries.get i := by
      rw [Entry.jump, record, Option.map_none, ← record]
    rw [same, Table.set_get]
  | some r =>
    simp only [Option.map_some, absent, Entry.jump, record]
    rfl

theorem State.foldl_jumpEntry (d : Int) (is : List EntryNo) (nodup : is.Nodup) (s : State)
    (absent : ∀ h, s.holdsStartTime h = false) :
    (∀ j, (is.foldl (fun s i => s.jumpEntry d i) s).entries.get j =
      if j ∈ is then (s.entries.get j).jump d else s.entries.get j) ∧
    is.foldl (fun s i => s.jumpEntry d i) s = { s with entries := (is.foldl (fun s i => s.jumpEntry d i) s).entries } := by
  induction is generalizing s with
  | nil => exact ⟨fun j => rfl, rfl⟩
  | cons i is ih =>
    obtain ⟨fresh, nodup⟩ := List.nodup_cons.1 nodup
    rw [List.foldl_cons, State.jumpEntry_eq absent]
    obtain ⟨entries, frame⟩ := ih nodup { s with entries := s.entries.set i ((s.entries.get i).jump d) } absent
    refine ⟨fun j => ?_, frame.trans rfl⟩
    rw [entries, Table.get_set]
    by_cases same : j = i
    · subst same
      simp [fresh]
    · simp [same]

/-- Every entry is carried across the jump. -/
def State.jumpEntries (s : State) (d : Int) : State := (List.finRange 96).foldl (fun s i => s.jumpEntry d i) s

theorem State.jumpEntries_spec {s : State} (absent : ∀ h, s.holdsStartTime h = false) (d : Int) :
    (∀ j, (s.jumpEntries d).entries.get j = (s.entries.get j).jump d) ∧
      s.jumpEntries d = { s with entries := (s.jumpEntries d).entries } := by
  obtain ⟨entries, frame⟩ := State.foldl_jumpEntry d (List.finRange 96) (List.nodup_finRange 96) s absent
  exact ⟨fun j => (entries j).trans (if_pos (List.mem_finRange j)), frame⟩

theorem State.jumpTo_eq (s : State) (time : BitVec 64) :
    s.jumpTo time = { s.jumpEntries (ticks time - s.now) with
      sceneTime := time
      timer := (s.jumpEntries (ticks time - s.now)).timer.map fun x => x.jump (ticks time - s.now) (ticks time)
      triggers := (s.jumpEntries (ticks time - s.now)).triggers.map fun x =>
        { x with candidate := x.candidate.map (· + (ticks time - s.now)) }
      cues := (s.jumpEntries (ticks time - s.now)).cues.map fun c => c.jump (ticks time - s.now) } := rfl

theorem Record.jump_waiting {r : Record} (d : Int) (waits : r.state = .waiting ∨ r.state = .priming) :
    r.jump false d = { r with startRef := r.startRef.map (· + d) } := by
  obtain state | state := waits
  all_goals simp [Record.jump, state]

theorem Record.jump_fading {r : Record} (b : Bool) (d : Int) (fading : r.state = .fading) :
    r.jump b d = { r with ramp := r.ramp.map fun x => { x with stop := x.stop + d } } := by
  simp [Record.jump, fading]

theorem Record.jump_stays {r : Record} (b : Bool) (d : Int) (waiting : r.state ≠ .waiting) (priming : r.state ≠ .priming)
    (fading : r.state ≠ .fading) : r.jump b d = r := by
  cases state : r.state <;> simp_all [Record.jump]

/-- Settles O30: the lane, then the timer, then the jump. -/
theorem setTimeCarriesDurations : Obligations.SetTimeCarriesDurations := by
  refine ⟨nextBoundary_spec, fun s l time handed => ⟨fun other => ?_, fun zero pending => ?_, fun zero none => ?_⟩⟩
  · refine exec_refused (exec_setTime_handed handed) ?_
    have no : (l == 0) = false := by simpa using other
    simp only [State.checkSetTime, need_error no, bind, Except.bind]
    rfl
  · refine exec_refused (exec_setTime_handed handed) ?_
    have some : (s.timer.any fun x => x.kind.isAbsolute) = true := List.any_eq_true.2 pending
    subst zero
    simp only [State.checkSetTime, bind, Except.bind, some]
    rfl
  · have no : (s.timer.any fun x => x.kind.isAbsolute) = false := by
      rw [List.any_eq_false]
      exact fun x mem => by simp [none x mem]
    have checks : s.checkSetTime l = .ok () := by
      subst zero
      simp only [State.checkSetTime, bind, Except.bind, no]
      rfl
    have absent : ∀ h, s.holdsStartTime h = false := fun h => by
      rw [State.holdsStartTime, List.any_eq_false]
      intro x mem is
      have absolute := none x mem
      rw [beq_iff_eq.1 is] at absolute
      cases absolute
    obtain ⟨entry, frame⟩ := State.jumpEntries_spec absent (ticks time - s.now)
    have jumped := s.jumpTo_eq time
    generalize s.jumpEntries (ticks time - s.now) = t at entry frame jumped
    rw [frame] at jumped
    have step := exec_accepted (exec_setTime_handed handed) checks
    rw [State.setTimeEffect, jumped] at step
    refine ⟨_, ticks time - s.now, rfl, step, rfl, ?_, fun t => Table.get_map _ _ _, fun q idle => ?_, fun q t pulsing => ?_,
      fun i r record => ?_, fun i record => ?_, rfl⟩
    · refine List.map_congr_left fun x mem => ?_
      unfold PendingExpiry.jump
      split
      · rfl
      · rw [none x mem]
        rfl
    · simp only [Table.get_map, idle]
      rfl
    · simp only [Table.get_map, pulsing]
      rfl
    · refine ⟨r.jump false (ticks time - s.now), ?_, Record.jump_waiting _, Record.jump_fading _ _, Record.jump_stays _ _⟩
      rw [entry, Entry.jump, record]
      rfl
    · rw [entry, Entry.jump, record, Option.map_none, ← record]

end Sys2Proof.Machine
end

section
/-!
SUPPORT. Going ON_AIR (R74 to R76) and the edge's work (R61, R63).
-/

namespace Sys2Proof.Machine

/-! ## Going ON_AIR (R74 to R76) -/

/-- The record that goes ON_AIR at `t`, with LATE_START where it is late and did not start NOW (R76). -/
def Record.wentOnAir (r : Record) (t : Int) : Record :=
  if 0 < r.lateAt t ∧ r.startPoint ≠ some .now
  then { r.onAirAt t with attention := true, causes := { r.causes with lateStart := true } } else r.onAirAt t

/-- What going ON_AIR leaves of a record, and of the state. -/
theorem State.goOnAir_spec {s : State} {h : EmitterHandle} {r : Record} (e : s.recordAt h = some r) :
    (s.goOnAir h).recordAt h = some (r.wentOnAir s.now) ∧ s.otherEntries (s.goOnAir h) h.slot ∧
      s.goOnAir h = { s with
        entries := (s.goOnAir h).entries, timer := s.timer.filter fun x => !(x.kind == .startTime h)
        units := (s.goOnAir h).units, sent := (s.goOnAir h).sent } := by
  have named : (s.withdraw fun e => e == .startTime h).recordAt h = some r := e
  by_cases late : 0 < r.lateAt s.now ∧ r.startPoint ≠ some .now
  · have went : s.goOnAir h =
        ((s.withdraw fun e => e == .startTime h).putRecord h.slot (r.wentOnAir s.now)).setCause r.lane .emitterAttention := by
      simp only [State.goOnAir, e]
      refine (if_pos late).trans ?_
      rw [Record.wentOnAir, if_pos late]
      exact State.raiseEmitter_putRecord (s := s.withdraw fun e => e == .startTime h) (State.recordAt_some e).1 (r.onAirAt s.now)
        .addLateStart
    rw [went]
    refine ⟨?_, fun k other => ?_, ?_⟩
    · rw [State.recordAt_setCause]
      exact State.recordAt_putRecord named _
    · rw [State.setCause_frame]
      exact Table.get_set_ne _ _ _ _ other
    · rw [State.setCause_frame]
      rfl
  · have went : s.goOnAir h = (s.withdraw fun e => e == .startTime h).putRecord h.slot (r.wentOnAir s.now) := by
      simp only [State.goOnAir, e]
      refine (if_neg late).trans ?_
      rw [Record.wentOnAir, if_neg late]
    rw [went]
    exact ⟨State.recordAt_putRecord named _, fun k other => Table.get_set_ne _ _ _ _ other, rfl⟩

/-- A record that went ON_AIR, apart from its attention. -/
theorem Record.wentOnAir_eq (r : Record) (t : Int) :
    r.wentOnAir t = { r with
      state := .onAir, lateAmount := r.lateAt t, advance := 0, paths := r.paths.map fun p => { p with acc := 0 }
      attention := (r.wentOnAir t).attention, causes := (r.wentOnAir t).causes } := by
  unfold Record.wentOnAir
  split
  all_goals rfl

theorem Record.wentOnAir_late {r : Record} {t : Int} (late : 0 < r.lateAt t) (other : r.startPoint ≠ some .now) :
    (r.wentOnAir t).attention = true ∧ (r.wentOnAir t).causes = { r.causes with lateStart := true } := by
  rw [Record.wentOnAir, if_pos ⟨late, other⟩]
  exact ⟨rfl, rfl⟩

theorem Record.wentOnAir_timely {r : Record} {t : Int} (timely : r.lateAt t = 0 ∨ r.startPoint = some .now) :
    (r.wentOnAir t).attention = r.attention ∧ (r.wentOnAir t).causes = r.causes := by
  have no : ¬(0 < r.lateAt t ∧ r.startPoint ≠ some .now) := by
    rintro ⟨late, other⟩
    obtain zero | now := timely
    · omega
    · exact other now
  rw [Record.wentOnAir, if_neg no]
  exact ⟨rfl, rfl⟩

theorem Record.startsWhenPrimed_iff (r : Record) :
    r.startsWhenPrimed = true ↔ (∀ t, r.startPoint ≠ some (.at t)) ∨ r.takenLate = true ∨ r.startMark = true := by
  unfold Record.startsWhenPrimed
  cases point : r.startPoint with
  | none => simp
  | some p => cases p <;> simp

/-- The taking of a start-time expiry, by the record's state. -/
theorem State.takeStartTime_marks {s : State} {h : EmitterHandle} {r : Record} (e : s.recordAt h = some r)
    (waits : r.state = .waiting ∨ r.state = .priming ∧ r.primedNoted = false) :
    s.takeStartTime h = s.putRecord h.slot { r with startMark := true } := by
  obtain state | ⟨state, noted⟩ := waits
  · simp [State.takeStartTime, e, state]
  · simp [State.takeStartTime, e, state, noted]

theorem State.takeStartTime_starts {s : State} {h : EmitterHandle} {r : Record} (e : s.recordAt h = some r)
    (state : r.state = .priming) (noted : r.primedNoted = true) : s.takeStartTime h = s.goOnAir h := by
  simp [State.takeStartTime, e, state, noted]

theorem State.takePrimed_notes {s : State} {h : EmitterHandle} {r : Record} (e : s.recordAt h = some r)
    (state : r.state = .priming) (no : r.startsWhenPrimed = false) :
    s.takePrimed h = s.putRecord h.slot { r with primedNoted := true } := by
  simp [State.takePrimed, e, state, no]

theorem State.takePrimed_starts {s : State} {h : EmitterHandle} {r : Record} (e : s.recordAt h = some r)
    (state : r.state = .priming) (yes : r.startsWhenPrimed = true) : s.takePrimed h = s.goOnAir h := by
  simp [State.takePrimed, e, state, yes]

/-- In any state but WAITING and PRIMING both are dropped. -/
theorem State.takeStart_dropped {s : State} {h : EmitterHandle}
    (no : ∀ r, s.recordAt h = some r → r.state ≠ .waiting ∧ r.state ≠ .priming) : s.takeStartTime h = s ∧ s.takePrimed h = s := by
  unfold State.takeStartTime State.takePrimed
  cases e : s.recordAt h with
  | none => exact ⟨rfl, rfl⟩
  | some r =>
    obtain ⟨waiting, priming⟩ := no r e
    cases state : r.state <;> simp_all

/-- Settles O32: by the message, and by the record's state and marks. -/
theorem thePrimedRecordGoesOnAir : Obligations.ThePrimedRecordGoesOnAir := by
  intro s w h c m which sent taken
  have step : (c = .startTimeExpiry h ∧ exec c s = .next (w.takeStartTime h)) ∨
      (c = .primedReport h ∧ exec c s = .next (w.takePrimed h)) := by
    subst taken
    obtain same | same := which
    all_goals cases same
    · exact .inl ⟨rfl, State.onMessage_taken sent⟩
    · exact .inr ⟨rfl, State.onMessage_taken sent⟩
  have dropped : (∀ r, s.recordAt h = some r → r.state ≠ .waiting ∧ r.state ≠ .priming) → exec c s = .next w := fun no => by
    have no' : ∀ r, w.recordAt h = some r → r.state ≠ .waiting ∧ r.state ≠ .priming := taken ▸ no
    obtain ⟨-, step⟩ | ⟨-, step⟩ := step
    · rw [step, (State.takeStart_dropped no').1]
    · rw [step, (State.takeStart_dropped no').2]
  refine ⟨fun r e => ?_, fun none => dropped fun r e => by rw [none] at e; cases e⟩
  have named : w.recordAt h = some r := taken ▸ e
  have put : ∀ k : Record, (w.putRecord h.slot k).recordAt h = some k ∧ s.otherEntries (w.putRecord h.slot k) h.slot ∧
      w.putRecord h.slot k = { w with entries := (w.putRecord h.slot k).entries } := fun k =>
    ⟨State.recordAt_putRecord named k, fun i other => (w.putRecord_other _ _ _ other).trans (taken ▸ rfl), rfl⟩
  refine ⟨fun is waits => ?_, fun is priming timed early unmarked => ?_, fun priming starts => ?_, fun waiting priming => ?_⟩
  · obtain ⟨-, step⟩ | ⟨other, -⟩ := step
    · rw [State.takeStartTime_marks named waits] at step
      exact ⟨_, step, put _⟩
    · rw [is] at other
      cases other
  · obtain ⟨other, -⟩ | ⟨-, step⟩ := step
    · rw [is] at other
      cases other
    · have no : r.startsWhenPrimed = false := by
        rw [Bool.eq_false_iff, ne_eq, r.startsWhenPrimed_iff]
        rintro (untimed | late | mark)
        · obtain ⟨t, at_⟩ := timed
          exact untimed t at_
        · rw [early] at late
          cases late
        · rw [unmarked] at mark
          cases mark
      rw [State.takePrimed_notes named priming no] at step
      exact ⟨_, step, put _⟩
  · have goes : exec c s = .next (w.goOnAir h) := by
      obtain ⟨is, step⟩ | ⟨is, step⟩ := step
      · obtain ⟨-, noted⟩ | ⟨other, -⟩ := starts
        · rw [step, State.takeStartTime_starts named priming noted]
        · rw [is] at other
          cases other
      · obtain ⟨other, -⟩ | ⟨-, yes⟩ := starts
        · rw [is] at other
          cases other
        · rw [step, State.takePrimed_starts named priming (r.startsWhenPrimed_iff.2 yes)]
    obtain ⟨record, others, frame⟩ := State.goOnAir_spec named
    have now : w.now = s.now := taken ▸ rfl
    rw [now] at record
    refine ⟨_, _, _, goes, rfl, record, fun i other => (others i other).trans (taken ▸ rfl), r.wentOnAir_eq _,
      Record.wentOnAir_late, Record.wentOnAir_timely, fun x mem => ?_, ?_⟩
    · rw [frame] at mem
      simpa using (List.mem_filter.1 mem).2
    · rw [frame]
  · exact dropped fun q eq => by
      obtain rfl : r = q := Option.some.inj (e.symm.trans eq)
      exact ⟨waiting, priming⟩

/-! ## Changes applied in turn (R61) -/

/-- Where one handle's record is changed and no other entry, every other handle reads as before. -/
theorem State.recordAt_other {s t : State} {h g : EmitterHandle} {r k : Record} (es : s.recordAt h = some r)
    (et : t.recordAt h = some k) (others : s.otherEntries t h.slot) (other : g ≠ h) : t.recordAt g = s.recordAt g := by
  by_cases slot : g.slot = h.slot
  · have gens : h.gen ≠ g.gen := fun same => other (by
      cases g
      cases h
      simp_all)
    have sGone : (s.entries.get g.slot).gen ≠ g.gen := by rwa [slot, (State.recordAt_some es).1]
    have tGone : (t.entries.get g.slot).gen ≠ g.gen := by rwa [slot, (State.recordAt_some et).1]
    simp [State.recordAt, sGone, tGone]
  · simp only [State.recordAt, others g.slot slot]

/-- From `s` to `u` staged changes may have been applied: every record keeps its state, its lane and its clip, the triggers change
in their apply lists alone, and what no change touches stands. -/
structure State.AppliesKept (s u : State) : Prop where
  records : ∀ h, (u.recordAt h).map (fun r => (r.state, r.lane, r.clip)) =
    (s.recordAt h).map fun r => (r.state, r.lane, r.clip)
  triggers : ∀ t, u.triggers.get t = { s.triggers.get t with applyList := (u.triggers.get t).applyList }
  frame : u = { s with
    entries := u.entries, timer := u.timer, triggers := u.triggers, ports := u.ports, slots := u.slots
    inFlight := u.inFlight, nextTag := u.nextTag }

namespace State.AppliesKept

variable {s t u : State}

theorem refl (s : State) : s.AppliesKept s := ⟨fun _ => rfl, fun _ => rfl, rfl⟩

theorem trans (a : s.AppliesKept t) (b : t.AppliesKept u) : s.AppliesKept u where
  records h := (b.records h).trans (a.records h)
  triggers k := by rw [b.triggers k, a.triggers k]
  frame := by
    rw [b.frame, a.frame]

end State.AppliesKept

theorem Record.TookChange.keeps {r k : Record} {v : NewValues} (took : r.TookChange k v) :
    k.state = r.state ∧ k.lane = r.lane ∧ k.clip = r.clip := by
  rw [took.1]
  exact ⟨rfl, rfl, rfl⟩

section

variable {s t : State} {h : EmitterHandle} {r : Record} {d : Change}

/-- One staged change applied: the record has taken it, and no other entry has changed. -/
theorem State.AppliedStaged.record (a : s.AppliedStaged t h r d) :
    (∃ k, t.recordAt h = some k ∧ r.TookChange k d.new) ∧ s.otherEntries t h.slot := by
  obtain ⟨w, -, frame, k, sent, record, took, -, others, -⟩ := a
  refine ⟨⟨k, record, took⟩, fun i other => (others i other).trans ?_⟩
  rw [frame]

theorem State.AppliedStaged.kept (a : s.AppliedStaged t h r d) (e : s.recordAt h = some r) : s.AppliesKept t := by
  obtain ⟨⟨k, record, took⟩, others⟩ := a.record
  obtain ⟨w, left, frame, -, -, -, -, -, -, -, -, -, -, applied⟩ := a
  have triggers : t.triggers = w.triggers := by rw [applied]
  refine ⟨fun g => ?_, fun j => ?_, ?_⟩
  · by_cases same : g = h
    · subst same
      obtain ⟨state, lane, clip⟩ := took.keeps
      simp [record, e, state, lane, clip]
    · rw [State.recordAt_other e record others same]
  · rw [triggers]
    obtain ⟨next, at_, on⟩ := left
    match point : d.apply with
    | .nextFrame => rw [(next point).2]
    | .at time => rw [(at_ time point).2]
    | .on k =>
      obtain ⟨-, other, here⟩ := on k point
      by_cases same : j = k
      · subst same
        rw [here]
      · rw [other j same]
  · rw [applied, frame]

end

/-- The steps of changes applied in turn: a handle with a staged change has it applied, any other is passed over. -/
theorem State.AppliedInTurn.step {s u : State} {h : EmitterHandle} {hs : List EmitterHandle} (a : s.AppliedInTurn u (h :: hs)) :
    ∃ t : State, t.AppliedInTurn u hs ∧
      ((∃ r d, s.recordAt h = some r ∧ r.staged = some d ∧ s.AppliedStaged t h r d) ∨
        (∀ r, s.recordAt h = some r → r.staged = none) ∧ t = s) := by
  obtain ⟨t, rest, applies, passes⟩ := a
  refine ⟨t, rest, ?_⟩
  by_cases change : ∃ r d, s.recordAt h = some r ∧ r.staged = some d
  · obtain ⟨r, d, e, staged⟩ := change
    exact .inl ⟨r, d, e, staged, applies r d e staged⟩
  · have none : ∀ r, s.recordAt h = some r → r.staged = none := fun r e =>
      Option.eq_none_iff_forall_ne_some.2 fun d staged => change ⟨r, d, e, staged⟩
    exact .inr ⟨none, passes none⟩

theorem State.AppliedInTurn.kept {hs : List EmitterHandle} {s u : State} (a : s.AppliedInTurn u hs) : s.AppliesKept u := by
  induction hs generalizing s with
  | nil =>
    obtain rfl : u = s := a
    exact .refl u
  | cons h hs ih =>
    obtain ⟨t, rest, ⟨r, d, e, -, applied⟩ | ⟨-, rfl⟩⟩ := a.step
    · exact (applied.kept e).trans (ih rest)
    · exact ih rest

/-- An entry whose handles are not listed is left. -/
theorem State.AppliedInTurn.otherEntry {hs : List EmitterHandle} {s u : State} (a : s.AppliedInTurn u hs) {i : EntryNo}
    (other : ∀ h ∈ hs, h.slot ≠ i) : u.entries.get i = s.entries.get i := by
  induction hs generalizing s with
  | nil =>
    obtain rfl : u = s := a
    rfl
  | cons h hs ih =>
    have tail : ∀ g ∈ hs, g.slot ≠ i := fun g mem => other g (List.mem_cons_of_mem _ mem)
    obtain ⟨t, rest, ⟨r, d, -, -, applied⟩ | ⟨-, rfl⟩⟩ := a.step
    · exact (ih rest tail).trans (applied.record.2 i (other h (List.mem_cons_self ..)).symm)
    · exact ih rest tail

/-- A handle that is not listed reads as before. -/
theorem State.AppliedInTurn.otherRecord {hs : List EmitterHandle} {s u : State} (a : s.AppliedInTurn u hs) {g : EmitterHandle}
    (other : g ∉ hs) : u.recordAt g = s.recordAt g := by
  induction hs generalizing s with
  | nil =>
    obtain rfl : u = s := a
    rfl
  | cons h hs ih =>
    obtain ⟨notHead, notTail⟩ := not_or.1 (List.mem_cons.not.1 other)
    obtain ⟨t, rest, ⟨r, d, e, -, applied⟩ | ⟨-, rfl⟩⟩ := a.step
    · obtain ⟨⟨k, record, -⟩, others⟩ := applied.record
      exact (ih rest notTail).trans (State.recordAt_other e record others notHead)
    · exact ih rest notTail

/-- A listed handle takes its staged change. -/
theorem State.AppliedInTurn.takes {hs : List EmitterHandle} {s u : State} (a : s.AppliedInTurn u hs) (nodup : hs.Nodup)
    {h : EmitterHandle} {r : Record} {d : Change} (mem : h ∈ hs) (e : s.recordAt h = some r) (staged : r.staged = some d) :
    ∃ k, u.recordAt h = some k ∧ r.TookChange k d.new := by
  induction hs generalizing s with
  | nil => cases mem
  | cons g hs ih =>
    obtain ⟨fresh, nodup⟩ := List.nodup_cons.1 nodup
    obtain ⟨t, rest, outcome⟩ := a.step
    by_cases same : h = g
    · subst same
      obtain ⟨r', d', e', staged', applied⟩ | ⟨none, -⟩ := outcome
      · obtain rfl : r = r' := Option.some.inj (e.symm.trans e')
        obtain rfl : d = d' := Option.some.inj (staged.symm.trans staged')
        obtain ⟨⟨k, record, took⟩, -⟩ := applied.record
        exact ⟨k, (rest.otherRecord fresh).trans record, took⟩
      · rw [none r e] at staged
        cases staged
    · have tail : h ∈ hs := (List.mem_cons.1 mem).resolve_left same
      obtain ⟨r', d', e', -, applied⟩ | ⟨-, rfl⟩ := outcome
      · obtain ⟨⟨k, record, -⟩, others⟩ := applied.record
        exact ih rest nodup tail ((State.recordAt_other e' record others same).trans e)
      · exact ih rest nodup tail e

/-! ## The arm list (R61) -/

/-- Whether a handle's record stands ARMED. -/
def State.isArmed (s : State) (h : EmitterHandle) : Bool :=
  match s.recordAt h with
  | some r => r.state == .armed
  | none => false

/-- Whether a record stands ARMED, read from what an apply keeps. -/
theorem State.isArmed_eq (s : State) (h : EmitterHandle) :
    s.isArmed h = ((s.recordAt h).map fun r => (r.state, r.lane, r.clip)).any fun x => x.1 == .armed := by
  unfold State.isArmed
  cases s.recordAt h <;> rfl

theorem State.AppliesKept.isArmed {s u : State} (a : s.AppliesKept u) : u.isArmed = s.isArmed := by
  funext h
  rw [State.isArmed_eq, State.isArmed_eq, a.records]

/-- A record of the arm list as the edge leaves it. -/
def Record.released (r : Record) (time : Int) : Record :=
  if r.state = .armed then { r with state := .waiting, startRef := some time } else r

theorem State.isArmed_some {s : State} {h : EmitterHandle} {r : Record} (e : s.recordAt h = some r) :
    s.isArmed h = decide (r.state = .armed) := by
  rw [State.isArmed, e]
  rfl

/-- A record that stands ARMED waits in the grant queue. -/
theorem State.releaseArmed_armed {s : State} {h : EmitterHandle} {r : Record} (e : s.recordAt h = some r)
    (armed : r.state = .armed) (time : Int) :
    s.releaseArmed h time =
      { s.putRecord h.slot { r with state := .waiting, startRef := some time } with grantQueue := s.grantQueue ++ [h] } := by
  rw [← State.becomeWaiting_eq e]
  simp [State.releaseArmed, e, armed]

theorem State.releaseArmed_left {s : State} {h : EmitterHandle} (no : s.isArmed h = false) (time : Int) :
    s.releaseArmed h time = s := by
  unfold State.releaseArmed
  cases e : s.recordAt h with
  | none => rfl
  | some r =>
    rw [State.isArmed_some e] at no
    simp [of_decide_eq_false no]

/-- What the release of one handle does to its own record and to every other handle. -/
theorem State.releaseArmed_recordAt (s : State) (h g : EmitterHandle) (time : Int) :
    (s.releaseArmed h time).recordAt g =
      if g = h then (s.recordAt h).map (·.released time) else s.recordAt g := by
  by_cases armed : ∃ r, s.recordAt h = some r ∧ r.state = .armed
  · obtain ⟨r, e, armed⟩ := armed
    rw [State.releaseArmed_armed e armed]
    by_cases same : g = h
    · subst same
      have put := State.recordAt_putRecord e { r with state := .waiting, startRef := some time }
      simp only [if_true, e, Option.map_some, Record.released, armed]
      exact put
    · rw [if_neg same]
      exact State.recordAt_putRecord_ne e same
  · have no : s.isArmed h = false := by
      cases e : s.recordAt h with
      | none => simp [State.isArmed, e]
      | some r =>
        rw [State.isArmed_some e]
        exact decide_eq_false fun state => armed ⟨r, e, state⟩
    rw [State.releaseArmed_left no]
    split
    · rename_i same
      subst same
      cases e : s.recordAt g with
      | none => rfl
      | some r =>
        rw [State.isArmed_some e] at no
        simp [Record.released, of_decide_eq_false no]
    · rfl

theorem State.releaseArmed_frame (s : State) (h : EmitterHandle) (time : Int) :
    s.releaseArmed h time = { s with
      entries := (s.releaseArmed h time).entries, grantQueue := s.grantQueue ++ if s.isArmed h then [h] else [] } := by
  cases yes : s.isArmed h with
  | false =>
    rw [State.releaseArmed_left yes]
    simp
  | true =>
    cases e : s.recordAt h with
    | none => simp [State.isArmed, e] at yes
    | some r =>
      rw [State.isArmed_some e] at yes
      rw [State.releaseArmed_armed e (of_decide_eq_true yes)]
      rfl

theorem State.releaseArmed_otherEntry (s : State) {h : EmitterHandle} (time : Int) {i : EntryNo} (other : h.slot ≠ i) :
    (s.releaseArmed h time).entries.get i = s.entries.get i := by
  cases yes : s.isArmed h with
  | false => rw [State.releaseArmed_left yes]
  | true =>
    cases e : s.recordAt h with
    | none => simp [State.isArmed, e] at yes
    | some r =>
      rw [State.isArmed_some e] at yes
      rw [State.releaseArmed_armed e (of_decide_eq_true yes)]
      exact Table.get_set_ne _ _ _ _ other.symm

/-- The whole arm list is released, in its order. -/
theorem State.foldl_releaseArmed (time : Int) (hs : List EmitterHandle) (nodup : hs.Nodup) (s : State) :
    (∀ g, (hs.foldl (fun s h => s.releaseArmed h time) s).recordAt g =
      if g ∈ hs then (s.recordAt g).map (·.released time) else s.recordAt g) ∧
    (∀ i, (∀ h ∈ hs, h.slot ≠ i) → (hs.foldl (fun s h => s.releaseArmed h time) s).entries.get i = s.entries.get i) ∧
    hs.foldl (fun s h => s.releaseArmed h time) s = { s with
      entries := (hs.foldl (fun s h => s.releaseArmed h time) s).entries
      grantQueue := s.grantQueue ++ hs.filter s.isArmed } := by
  induction hs generalizing s with
  | nil => exact ⟨fun g => rfl, fun i _ => rfl, by simp⟩
  | cons h hs ih =>
    obtain ⟨fresh, nodup⟩ := List.nodup_cons.1 nodup
    obtain ⟨records, others, frame⟩ := ih nodup (s.releaseArmed h time)
    have armed : hs.filter (s.releaseArmed h time).isArmed = hs.filter s.isArmed :=
      List.filter_congr fun g mem => by
        have other : g ≠ h := fun same => fresh (same ▸ mem)
        simp only [State.isArmed, State.releaseArmed_recordAt, if_neg other]
    refine ⟨fun g => ?_, fun i other => ?_, ?_⟩
    · rw [List.foldl_cons, records, State.releaseArmed_recordAt]
      by_cases same : g = h
      · subst same
        simp [fresh]
      · simp [same]
    · rw [List.foldl_cons, others i fun g mem => other g (List.mem_cons_of_mem _ mem)]
      exact State.releaseArmed_otherEntry s time (other h (List.mem_cons_self ..))
    · rw [List.foldl_cons, frame, armed, State.releaseArmed_frame, List.filter_cons]
      simp only [List.append_assoc]
      split
      all_goals rfl

/-! ## The edge (R61, R63) -/

/-- The arm list released and both lists left empty. -/
def State.edgeEnd (v : State) (t : Trigger) (arms : List EmitterHandle) (time : Int) : State :=
  let u := arms.foldl (fun s h => s.releaseArmed h time) v
  u.setTrigger t { u.triggers.get t with armList := [], applyList := [] }

theorem State.takeEdge_works {s : State} {t : Trigger}
    (work : (s.triggers.get t).armList ≠ [] ∨ (s.triggers.get t).applyList ≠ []) (time : Int) :
    s.takeEdge t time = ((s.triggers.get t).applyList.foldl (fun s h => s.applyStaged h) s).edgeEnd t
      (s.triggers.get t).armList time := by
  have some : ((s.triggers.get t).armList.isEmpty && (s.triggers.get t).applyList.isEmpty) = false := by
    rw [Bool.and_eq_false_iff]
    obtain arms | applies := work
    · exact .inl (by simpa using arms)
    · exact .inr (by simpa using applies)
  simp only [State.takeEdge, some]
  rfl

theorem State.takeEdge_unclaimed {s : State} {t : Trigger} (arms : (s.triggers.get t).armList = [])
    (applies : (s.triggers.get t).applyList = []) (time : Int) : s.takeEdge t time = s.unclaimed t time := by
  simp [State.takeEdge, arms, applies]

/-- What the release of the arm list leaves. -/
theorem State.edgeEnd_spec (v : State) (t : Trigger) (arms : List EmitterHandle) (nodup : arms.Nodup) (time : Int) :
    (∀ g, (v.edgeEnd t arms time).recordAt g = if g ∈ arms then (v.recordAt g).map (·.released time) else v.recordAt g) ∧
    (∀ i, (∀ h ∈ arms, h.slot ≠ i) → (v.edgeEnd t arms time).entries.get i = v.entries.get i) ∧
    (v.edgeEnd t arms time).triggers.get t = { v.triggers.get t with armList := [], applyList := [] } ∧
    (∀ k, k ≠ t → (v.edgeEnd t arms time).triggers.get k = v.triggers.get k) ∧
    v.edgeEnd t arms time = { v with
      entries := (v.edgeEnd t arms time).entries, grantQueue := v.grantQueue ++ arms.filter v.isArmed
      triggers := (v.edgeEnd t arms time).triggers } := by
  obtain ⟨records, others, frame⟩ := State.foldl_releaseArmed time arms nodup v
  unfold State.edgeEnd
  generalize arms.foldl (fun s h => s.releaseArmed h time) v = u at records others frame ⊢
  have triggers : u.triggers = v.triggers := by rw [frame]
  refine ⟨records, others, ?_, fun k other => ?_, ?_⟩
  · exact (Table.get_set_self _ _ _).trans (by rw [triggers])
  · exact (Table.get_set_ne _ _ _ _ other).trans (by rw [triggers])
  · have set : u.setTrigger t { u.triggers.get t with armList := [], applyList := [] } = { u with
        triggers := u.triggers.set t { u.triggers.get t with armList := [], applyList := [] } } := rfl
    extract_lets r
    rw [set, frame]

/-- Settles O34: by whether the trigger's lists are empty. -/
theorem anEdgeIsWorkedOrUnclaimed : Obligations.AnEdgeIsWorkedOrUnclaimed := by
  intro s t time sent
  have step : exec (.triggerEdge t time) s = .next ((s.without (.edge t time)).takeEdge t time) := State.onMessage_taken sent
  refine ⟨fun arms applies => ?_, fun work nodup => ?_⟩
  · rw [State.takeEdge_unclaimed (s := s.without (.edge t time)) arms applies] at step
    refine ⟨_, step, fun n note => ?_, fun none => ?_, fun k other => ?_, ?_, ?_⟩
    · rw [State.unclaimed, State.setCause_frame]
      have same : ((s.without (.edge t time)).triggers.get t).note = some n := note
      simp only [State.setTrigger, Table.get_set_self, same]
      rfl
    · rw [State.unclaimed, State.setCause_frame]
      have same : ((s.without (.edge t time)).triggers.get t).note = .none := none
      simp only [State.setTrigger, Table.get_set_self, same]
      rfl
    · rw [State.unclaimed, State.setCause_frame]
      exact Table.get_set_ne _ _ _ _ other
    · exact (State.setCause_one _ _ _).1
    · rw [State.unclaimed, State.setCause_frame]
      rfl
  · rw [State.takeEdge_works (s := s.without (.edge t time)) work] at step
    have turn := State.foldl_applyStaged (s.triggers.get t).applyList (s.without (.edge t time))
    have same : (s.without (.edge t time)).triggers = s.triggers := rfl
    rw [same] at step
    generalize (s.triggers.get t).applyList.foldl (fun s h => s.applyStaged h) (s.without (.edge t time)) = v at turn step
    have kept := turn.kept
    obtain ⟨records, others, here, elsewhere, frame⟩ := v.edgeEnd_spec t (s.triggers.get t).armList nodup time
    have read : ∀ g, (s.without (.edge t time)).recordAt g = s.recordAt g := fun _ => rfl
    have fields := kept.frame
    refine ⟨_, step, ?_, ?_, fun h r mem e state => ?_, ⟨v, turn, fun h r mem e => ?_, others, elsewhere, ?_⟩,
      fun once h r d mem e staged => ?_, fun i other => ?_, ?_, ?_, ?_, ?_⟩
    · rw [here, kept.triggers t]
      rfl
    · rw [frame, kept.isArmed, fields]
      rfl
    · have image := kept.records h
      rw [read, e] at image
      cases ev : v.recordAt h with
      | none => simp [ev] at image
      | some k =>
        simp only [ev, Option.map_some, Option.some.injEq, Prod.mk.injEq] at image
        obtain ⟨sameState, lane, clip⟩ := image
        have armed : k.state = .armed := sameState.trans state
        refine ⟨{ k with state := .waiting, startRef := some time }, ?_, rfl, rfl, lane, clip⟩
        rw [records, if_pos mem, ev, Option.map_some, Record.released, if_pos armed]
    · rw [records, if_pos mem, e]
      rfl
    · rw [frame]
    · obtain ⟨k, record, took⟩ := turn.takes once mem e staged
      refine ⟨k, took, ?_⟩
      rw [records, record]
      have state := took.keeps.1
      by_cases listed : h ∈ (s.triggers.get t).armList
      · simp [listed, Record.released, state]
      · simp [listed]
    · rw [others i fun h mem => other h (List.mem_append_left _ mem),
        turn.otherEntry fun h mem => other h (List.mem_append_right _ mem)]
      rfl
    all_goals
      rw [frame, fields]
      rfl

end Sys2Proof.Machine
end

section
/-!
SUPPORT. The output of a port: its sample (R33, R114, R150 to R153) and its setting (R153 to R155).
-/

namespace Sys2Proof.Machine

/-! ## The output sample -/

/-- A member whose emitter does not sound adds zero. -/
theorem State.memberSum_silent {s : State} {m : Member}
    (silent : ∀ e, s.recordAt m.handle = some e → e.state ≠ .onAir ∧ e.state ≠ .fading) : s.memberSum m = ⟨0, 0⟩ := by
  unfold State.memberSum
  cases e : s.recordAt m.handle with
  | none => rfl
  | some r =>
    obtain ⟨onAir, fading⟩ := silent r e
    have no : r.state.sounds = false := by
      cases state : r.state <;> simp_all [EmState.sounds]
    simp [no]

theorem State.memberSum_sounding {s : State} {m : Member} {e : Record} (record : s.recordAt m.handle = some e)
    (sounds : e.state = .onAir ∨ e.state = .fading) :
    s.memberSum m = (List.zipWith (fun a x => s.contribution e a x) e.paths m.handOver).foldl addIq ⟨0, 0⟩ := by
  have yes : e.state.sounds = true := by
    obtain state | state := sounds
    all_goals rw [state]; rfl
  simp only [State.memberSum, record, yes, if_true]

theorem State.contribution_onAir (s : State) {e : Record} (onAir : e.state = .onAir) (a : Path) (x : HandOver) :
    s.contribution e a x =
      turnIq (scaleIq (scaleIq ⟨x.sample.i.toInt, x.sample.q.toInt⟩ a.vals.weight) (s.pathGain a))
        (phaseAngle a.vals.phase + x.acc) := by
  have other : ¬ e.state = .fading := by simp [onAir]
  simp only [State.contribution, if_neg other]
  rfl

theorem State.contribution_fading (s : State) {e : Record} (fading : e.state = .fading) (a : Path) (x : HandOver) :
    s.contribution e a x =
      turnIq (scaleIq (scaleIq (scaleIq ⟨x.sample.i.toInt, x.sample.q.toInt⟩ a.vals.weight) (s.pathGain a)) (e.rampGain s.now))
        (phaseAngle a.vals.phase + x.acc) := by
  simp only [State.contribution, if_pos fading]
  rfl

section

variable {r : PortRec}

theorem PortRec.mode_scene (ready : r.head = .ready) (free : r.exchange = none) (tone : r.output.tone = false)
    (scene : r.output.scene = true) : r.mode = .scene := by
  simp [PortRec.mode, ready, free, tone, scene]

theorem PortRec.mode_tone (ready : r.head = .ready) (free : r.exchange = none) (tone : r.output.tone = true) :
    r.mode = .tone := by
  simp [PortRec.mode, ready, free, tone]

/-- A port that is not READY, is being retuned, or has nothing enabled, is silent. -/
theorem State.portOutput_silent (s : State)
    (silent : r.head ≠ .ready ∨ r.exchange.isSome = true ∨ r.output.tone = false ∧ r.output.scene = false) :
    s.portOutput r = ⟨0, 0⟩ := by
  have mode : r.mode = .headOff ∨ r.mode = .retuning ∨ r.mode = .quiet := by
    unfold PortRec.mode
    split
    · exact .inl rfl
    · rename_i ready
      split
      · exact .inr (.inl rfl)
      · rename_i free
        obtain off | busy | ⟨tone, scene⟩ := silent
        · exact absurd off ready
        · exact absurd busy free
        · simp [tone, scene]
  obtain mode | mode | mode := mode
  all_goals simp only [State.portOutput, mode]

end

/-- Settles O46: by the port's mode, and for a member by its emitter's state. -/
theorem anOutputSampleGoesToTheHead : Obligations.AnOutputSampleGoesToTheHead := by
  intro s p r z port sum
  subst port sum
  refine ⟨_, s.portOutput (s.ports.get p), rfl, Table.get_set_self _ _ _, State.portOutput_silent s, fun ready free tone => ?_,
    fun ready free tone scene => ?_, fun m => State.memberSum_silent, fun m e => State.memberSum_sounding,
    fun e a x onAir => s.contribution_onAir onAir a x, fun e a x m g fading ramp gain => ?_,
    fun k other => Table.get_set_ne _ _ _ _ other, rfl⟩
  · simp only [State.portOutput, PortRec.mode_tone ready free tone]
    rfl
  · simp only [State.portOutput, PortRec.mode_scene ready free tone scene]
    rfl
  · have present : e.rampGain s.now = g := by
      rw [Record.rampGain, ramp, gain]
    rw [s.contribution_fading fading, present]

/-! ## The output setting -/

theorem State.checkSetOutput_ok {s : State} {l : Lane} {q : SetOutputReq} {p : Port} (names : q.port.toNat = p.val)
    (lane : l = 0 ∨ l = (s.ports.get p).owner) (divider : q.divider = 4 ∨ q.divider = 8 ∨ q.divider = 16 ∨ q.divider = 32) :
    s.checkSetOutput l q = .ok p := by
  have known : (q.divider == 4 || q.divider == 8 || q.divider == 16 || q.divider == 32) = true := by
    simpa [or_assoc] using divider
  simp only [State.checkSetOutput, want_some (eight_val names), bind, Except.bind, need_ok known, State.findPort_ok names lane]

/-- An expiry for a time still to come is kept by the timer. -/
theorem State.request_later {s : State} {e : Expiry} {due : Int} (ahead : ¬ due ≤ s.now) :
    s.request e due = { s with timer := s.timer ++ [⟨e, due⟩] } := by
  rw [State.request, if_neg ahead]

/-- A setting that waits for an expiry of its own. -/
theorem State.setOutputEffect_fresh {s : State} {q : SetOutputReq} {p : Port} (free : s.outstanding (.outputChange p) = false) :
    s.setOutputEffect q p =
      ({ s.setPort p { s.ports.get p with pendingOutput := some ⟨q.scene, q.tone, q.divider⟩ } with
          timer := s.timer ++ [⟨.outputChange p, nextBoundary s.now⟩] },
        ⟨.done, .output .pending (nextBoundary s.now)⟩) := by
  have none : s.timer.find? (fun x => x.kind == .outputChange p) = none := by
    rw [List.find?_eq_none]
    intro x mem is
    have some : s.outstanding (.outputChange p) = true := by
      rw [State.outstanding, List.any_eq_true.2 ⟨x, mem, is⟩, Bool.true_or]
    rw [free] at some
    cases some
  have boundary : s.outputBoundary p = nextBoundary s.now := by
    simp only [State.outputBoundary, none, free]
    rfl
  have ahead : ¬ nextBoundary s.now ≤ s.now := Int.not_le.2 (nextBoundary_spec s.now).1
  simp only [State.setOutputEffect, boundary, free]
  rw [if_neg Bool.false_ne_true]
  exact Prod.ext (State.request_later (s := s.setPort p _) ahead) rfl

theorem State.setOutputEffect_standing {s : State} {q : SetOutputReq} {p : Port}
    (stands : s.outstanding (.outputChange p) = true) :
    s.setOutputEffect q p =
      (s.setPort p { s.ports.get p with pendingOutput := some ⟨q.scene, q.tone, q.divider⟩ },
        ⟨.done, .output .pending (s.outputBoundary p)⟩) := by
  simp only [State.setOutputEffect, stands, if_true]
  rfl

theorem PortRec.changeOutput_some {r : PortRec} {o : OutputSetting} (pending : r.pendingOutput = some o) :
    r.changeOutput = { r with
      output := o, pendingOutput := none
      tonePhase := if o.tone = true ∧ r.output.tone = false then 0 else r.tonePhase } := by
  have enabled : (o.tone && !r.output.tone) = true ↔ o.tone = true ∧ r.output.tone = false := by simp
  simp only [PortRec.changeOutput, pending, enabled]

/-- Settles O47: by whether an expiry for the port stands, and by whether an output is pending. -/
theorem anOutputSettingWaitsForItsFrame : Obligations.AnOutputSettingWaitsForItsFrame := by
  intro s p
  refine ⟨fun l q handed names lane divider => ?_, fun sent => ?_⟩
  · have step := exec_accepted (exec_setOutput_handed handed) (State.checkSetOutput_ok names lane divider)
    cases stands : s.outstanding (.outputChange p) with
    | false =>
      rw [State.setOutputEffect_fresh stands] at step
      refine ⟨_, _, step, Table.get_set_self _ _ _, fun k other => Table.get_set_ne _ _ _ _ other, fun _ => ⟨rfl, rfl⟩,
        fun no => ?_, rfl⟩
      cases no
    | true =>
      rw [State.setOutputEffect_standing stands] at step
      refine ⟨_, _, step, Table.get_set_self _ _ _, fun k other => Table.get_set_ne _ _ _ _ other, fun no => ?_,
        fun _ => ⟨rfl, fun x first => ?_, fun none => ?_⟩, rfl⟩
      · cases no
      · rw [State.outputBoundary, first]
      · rw [State.outputBoundary, none]
        exact if_pos stands
  · have step : exec (.outputChangeExpiry p) s =
        .next ((s.without (.expiry (.outputChange p))).modifyPort p PortRec.changeOutput) := State.onMessage_taken sent
    obtain ⟨here, others, frame⟩ := (s.without (.expiry (.outputChange p))).modifyPort_one p PortRec.changeOutput
    refine ⟨_, step, fun o pending => ?_, fun none => ?_, fun k other => others k other, frame⟩
    · rw [here]
      exact PortRec.changeOutput_some pending
    · rw [here]
      have none' : ((s.without (.expiry (.outputChange p))).ports.get p).pendingOutput = .none := none
      simp only [PortRec.changeOutput, none']
      rfl

end Sys2Proof.Machine
end

section
/-!
SUPPORT. The head links: how an exchange begins, is answered and times out (R156, R157, R161 to R163, R190).
-/

namespace Sys2Proof.Machine

/-! ## Ports -/

theorem State.setPort_self (s : State) (p : Port) (r : PortRec) : (s.setPort p r).ports.get p = r := Table.get_set_self _ _ _

theorem State.setPort_other (s : State) (p : Port) (r : PortRec) : s.otherPorts (s.setPort p r) p :=
  fun _ other => Table.get_set_ne _ _ _ _ other

theorem State.setPort_setPort (s : State) (p : Port) (r q : PortRec) : (s.setPort p r).setPort p q = s.setPort p q := by
  simp [State.setPort]

theorem State.setPort_set (s : State) (p : Port) (r q : PortRec) : (s.setPort p r).ports.set p q = s.ports.set p q :=
  Table.set_set _ _ _ _

/-- An exchange ends, and the port's record is changed. -/
theorem State.endExchange_modify (s : State) (p : Port) (f : PortRec → PortRec) :
    (s.endExchange p).modifyPort p f = s.setPort p (f { s.ports.get p with exchange := none }) := by
  rw [State.modifyPort, State.endExchange, State.setPort_setPort, State.setPort_self]

/-- The rate and the kind of source of a port depend on the clock sources alone. -/
theorem State.rates_congr {s t : State} (clocks : ∀ k, (t.ports.get k).clock = (s.ports.get k).clock) (p : Port) :
    t.portRate p = s.portRate p ∧ t.runsExternal p = s.runsExternal p := by
  simp only [State.portRate, State.clockRate, State.runsExternal, clocks, and_self]

/-! ## Head faults (R157) -/

/-- A fault taken at a port without an exchange. -/
theorem PortRec.faulted_free {r : PortRec} (free : r.exchange = none) (c : FaultCondition) (n : Nat) (now : BitVec 64) :
    r.faulted c n now = { r with
      head := .fault, detail := some ⟨c, n, now⟩
      faultCount := if r.faultCount < 65535 then r.faultCount + 1 else r.faultCount } := by
  unfold PortRec.faulted
  rw [free]
  cases r
  cases free
  rfl

/-- A fault taken during an exchange, which notes it; a PROBE of start-up leaves the head as it is. -/
theorem PortRec.faulted_exchanging {r : PortRec} {x : Exchange} (exchange : r.exchange = some x) (c : FaultCondition) (n : Nat)
    (now : BitVec 64) :
    r.faulted c n now = { r with
      head := if x.purpose == .startUp && x.kind == .probe then r.head else .fault, detail := some ⟨c, n, now⟩
      faultCount := if r.faultCount < 65535 then r.faultCount + 1 else r.faultCount
      exchange := some { x with faulted := true } } := by
  unfold PortRec.faulted
  rw [exchange]
  rfl

/-- While the part is not READY, a fault raises no attention. -/
theorem State.headFault_starting {s : State} (starting : s.phase ≠ .ready) (p : Port) (c : FaultCondition) (n : Nat) :
    s.headFault p c n = s.setPort p ((s.ports.get p).faulted c n s.sceneTime) := by
  simp only [State.headFault, if_neg starting]

/-! ## How an exchange is met (R156) -/

section

variable {s : State} {p : Port} {x : Exchange} (exchange : (s.ports.get p).exchange = some x)

include exchange

theorem State.awaited_some (early : s.refTime < x.due) : s.awaited p x.tag = some x := by
  simp [State.awaited, exchange, early]

theorem exec_probeAnswer_probe (early : s.refTime < x.due) (kind : x.kind = .probe) (id : BitVec 32) (max : Nat) :
    exec (.probeAnswer p x.tag id max) s = .next (s.probeAnswered p x id max) := by
  simp only [exec, execProbeAnswer, State.awaited_some exchange early, kind]

theorem exec_setRateAck_setRate (early : s.refTime < x.due) (kind : x.kind = .setRate) :
    exec (.setRateAck p x.tag) s = .next (s.rateAcknowledged p x) := by
  simp only [exec, execSetRateAck, State.awaited_some exchange early, kind]

/-- An answer of the wrong kind. -/
theorem exec_answer_wrong {c : Instr} {id : BitVec 32} {max : Nat} (early : s.refTime < x.due)
    (wrong : x.kind = .probe ∧ c = .setRateAck p x.tag ∨ x.kind = .setRate ∧ c = .probeAnswer p x.tag id max) :
    exec c s = .next (s.headFault p .headProtocol 0) := by
  obtain ⟨kind, rfl⟩ | ⟨kind, rfl⟩ := wrong
  · simp only [exec, execSetRateAck, State.awaited_some exchange early, kind]
  · simp only [exec, execProbeAnswer, State.awaited_some exchange early, kind]

theorem exec_timeout_early (early : s.refTime < x.due) : exec (.headExchangeTimeout p) s = .next s := by
  simp only [exec, execHeadExchangeTimeout, exchange, if_neg (Nat.not_le.2 early)]

theorem exec_timeout_probe (due : x.due ≤ s.refTime) (kind : x.kind = .probe) :
    exec (.headExchangeTimeout p) s = .next (s.probeTimedOut p x) := by
  simp only [exec, execHeadExchangeTimeout, exchange, if_pos due, kind]

theorem exec_timeout_setRate (due : x.due ≤ s.refTime) (kind : x.kind = .setRate) :
    exec (.headExchangeTimeout p) s = .next (s.rateTimedOut p x) := by
  simp only [exec, execHeadExchangeTimeout, exchange, if_pos due, kind]

end

/-- An answer that no exchange awaits. -/
theorem State.awaited_none {s : State} {p : Port} {tag : BitVec 8} (other : ∀ x, (s.ports.get p).exchange = some x → x.tag ≠ tag) :
    s.awaited p tag = none := by
  unfold State.awaited
  cases exchange : (s.ports.get p).exchange with
  | none => rfl
  | some x => simp [other x exchange]

/-! ## The outcomes -/

/-- The record of a port whose PROBE has been answered. -/
def PortRec.probed (r : PortRec) (x : Exchange) (id : BitVec 32) (max : Nat) : PortRec :=
  { r with exchange := none, identity := some ⟨id, max⟩, head := if x.faulted then .fault else r.head }

theorem State.probed_rates (s : State) (p : Port) (x : Exchange) (id : BitVec 32) (max : Nat) (k : Port) :
    (s.setPort p ((s.ports.get p).probed x id max)).portRate k = s.portRate k ∧
      (s.setPort p ((s.ports.get p).probed x id max)).runsExternal k = s.runsExternal k :=
  State.portRate_setPort (by rfl) k

theorem State.probeAnswered_ok {s : State} {p : Port} {x : Exchange} {max : Nat} (fits : s.portRate p ≤ max) (id : BitVec 32) :
    s.probeAnswered p x id max =
      (s.setPort p ((s.ports.get p).probed x id max)).beginExchange p .setRate x.purpose x.faulted := by
  have no : ¬ max < (s.setPort p ((s.ports.get p).probed x id max)).portRate p := by
    rw [(s.probed_rates p x id max p).1]
    omega
  simp only [State.probeAnswered, State.endExchange_modify]
  exact if_neg no

theorem State.probeAnswered_limit {s : State} {p : Port} {x : Exchange} {max : Nat} (below : max < s.portRate p)
    (id : BitVec 32) :
    s.probeAnswered p x id max =
      ((s.setPort p ((s.ports.get p).probed x id max)).headFault p .rateLimit max).settlePort x.purpose
        (.done (((s.setPort p ((s.ports.get p).probed x id max)).headFault p .rateLimit max).headResult p)) := by
  have yes : max < (s.setPort p ((s.ports.get p).probed x id max)).portRate p := by
    rwa [(s.probed_rates p x id max p).1]
  simp only [State.probeAnswered, State.endExchange_modify]
  exact if_pos yes

/-- What a PROBE that is answered in time and within the rate leaves. -/
theorem State.probeAnswered_begins {s : State} {p : Port} {x : Exchange} {max : Nat} (fits : s.portRate p ≤ max) (id : BitVec 32) :
    (s.probeAnswered p x id max).ports.get p = { s.ports.get p with
        identity := some ⟨id, max⟩, tag := (s.ports.get p).tag + 1, head := if x.faulted = true then .fault else (s.ports.get p).head
        exchange := some ⟨.setRate, (s.ports.get p).tag + 1, x.purpose, s.refTime + 50000, s.sceneTime, x.faulted⟩ } ∧
      s.otherPorts (s.probeAnswered p x id max) p ∧
      (s.probeAnswered p x id max).sent =
        s.sent ++ [.setRate p ((s.ports.get p).tag + 1) (s.portRate p) (s.runsExternal p)] ∧
      s.probeAnswered p x id max = { s with
        ports := (s.probeAnswered p x id max).ports, sent := (s.probeAnswered p x id max).sent } := by
  obtain ⟨rate, kind⟩ := s.probed_rates p x id max p
  rw [State.probeAnswered_ok fits, State.beginExchange_eq, rate, kind, State.setPort_self]
  refine ⟨Table.get_set_self _ _ _, fun k other => ?_, rfl, rfl⟩
  exact (Table.get_set_ne _ _ _ _ other).trans (Table.get_set_ne _ _ _ _ other)

theorem State.rateAcknowledged_eq (s : State) (p : Port) (x : Exchange) :
    s.rateAcknowledged p x =
      (s.setPort p (PortRec.acknowledged { s.ports.get p with exchange := none } x)).settlePort x.purpose
        (.done (if x.faulted then .headState .fault
          else (s.setPort p (PortRec.acknowledged { s.ports.get p with exchange := none } x)).headResult p)) := by
  rw [State.rateAcknowledged, State.endExchange_modify]

/-- The record of a port whose head has timed out on a SET_RATE. -/
def PortRec.silenced (r : PortRec) (now : BitVec 64) : PortRec :=
  { r with
    exchange := none, head := .fault, detail := some ⟨.noResponse, 0, now⟩
    faultCount := if r.faultCount < 65535 then r.faultCount + 1 else r.faultCount }

/-- A fault that is taken once the port's exchange has ended, while the part is READY. -/
theorem State.endExchange_headFault {s : State} (ready : s.phase = .ready) (p : Port) :
    s.PortAttentionSet ((s.endExchange p).headFault p .noResponse 0) (s.ports.get p).owner ∧
      ((s.endExchange p).headFault p .noResponse 0).ports = s.ports.set p { (s.ports.get p).silenced s.sceneTime with
        attention := true, causes := { (s.ports.get p).causes with portFault := true } } ∧
      (s.endExchange p).headFault p .noResponse 0 = { s with
        ports := ((s.endExchange p).headFault p .noResponse 0).ports
        units := ((s.endExchange p).headFault p .noResponse 0).units
        sent := ((s.endExchange p).headFault p .noResponse 0).sent } := by
  have self : (s.endExchange p).ports.get p = { s.ports.get p with exchange := none } := State.setPort_self _ _ _
  have owner : ((s.endExchange p).ports.get p).owner = (s.ports.get p).owner := by rw [self]
  obtain ⟨attention, ports, frame⟩ := State.headFault_sets (s := s) (t := s.endExchange p) .noResponse 0 ready rfl rfl owner
  refine ⟨attention, ?_, frame⟩
  rw [ports, self, PortRec.faulted_free (by rfl)]
  simp only [State.endExchange, State.setPort, Table.set_set]
  rfl

/-! ## RESTART_PORT and its exchanges (R162, R163) -/

theorem State.completeHeld_eq (s : State) (l : Lane) (a : Answer) (n : Nat) :
    s.completeHeld l a n = { s with inFlight := s.inFlight ++ [.heldDone l a n] } := rfl

theorem State.checkRestart_ok {s : State} {l : Lane} {b : BitVec 8} {p : Port} (names : b.toNat = p.val)
    (lane : l = 0 ∨ l = (s.ports.get p).owner) (free : (s.ports.get p).exchange = none) : s.checkRestart l b = .ok p := by
  simp [State.checkRestart, State.findPort_ok names lane, need, free, bind, Except.bind, pure, Except.pure]

theorem State.checkRestart_busy {s : State} {l : Lane} {b : BitVec 8} {p : Port} (names : b.toNat = p.val)
    (lane : l = 0 ∨ l = (s.ports.get p).owner) (busy : (s.ports.get p).exchange.isSome = true) :
    s.checkRestart l b = .error (.refuse .portBusy) := by
  obtain ⟨x, exchange⟩ := Option.isSome_iff_exists.1 busy
  simp [State.checkRestart, State.findPort_ok names lane, need, exchange, bind, Except.bind]

/-- Settles O49: by the message, and by what the exchange in flight awaits. -/
theorem anAnsweredExchangeBringsTheHeadUp : Obligations.AnAnsweredExchangeBringsTheHeadUp := by
  intro s l p r port
  subst port
  refine ⟨fun b handed names lane => ⟨fun busy => ?_, fun free => ?_⟩, fun x id max exchange early kind purpose =>
    ⟨fun fits => ?_, fun below ready => ?_⟩, fun x exchange early kind purpose => ?_,
    fun x id max c exchange early ready other wrong => ?_, fun tag id max other => ?_⟩
  · exact exec_restartPort_refused handed (State.checkRestart_busy names lane busy)
  · have step := exec_restartPort_accepted handed (State.checkRestart_ok names lane free)
    rw [State.beginExchange_eq] at step
    exact ⟨_, step, Table.get_set_self _ _ _, fun k other => Table.get_set_ne _ _ _ _ other, rfl, Table.get_set_self _ _ _,
      fun k other => Table.get_set_ne _ _ _ _ other, rfl⟩
  · have step := exec_probeAnswer_probe exchange early kind id max
    rw [← purpose]
    exact ⟨_, step, State.probeAnswered_begins fits id⟩
  · have step := exec_probeAnswer_probe exchange early kind id max
    have self := s.setPort_self p ((s.ports.get p).probed x id max)
    have owner : ((s.setPort p ((s.ports.get p).probed x id max)).ports.get p).owner = (s.ports.get p).owner := by
      rw [self]
      rfl
    obtain ⟨attention, ports, frame⟩ := State.headFault_sets (s := s) (t := s.setPort p ((s.ports.get p).probed x id max))
      .rateLimit max ready rfl rfl owner
    rw [self, PortRec.faulted_free (by rfl)] at ports
    rw [State.setPort_set] at ports
    rw [State.probeAnswered_limit below, purpose] at step
    generalize (s.setPort p ((s.ports.get p).probed x id max)).headFault p .rateLimit max = t at step attention ports frame
    refine ⟨_, step, ?_, fun k other => ?_, attention, ?_, ?_⟩
    · exact (congrArg (·.get p) ports).trans (Table.get_set_self _ _ _)
    · exact (congrArg (·.get k) ports).trans (Table.get_set_ne _ _ _ _ other)
    · have result : t.headResult p = .head .fault (some ⟨id, max⟩) := by
        rw [State.headResult, ports, Table.get_set_self]
        rfl
      rw [result, frame]
      rfl
    · rw [frame]
      rfl
  · have step := exec_setRateAck_setRate exchange early kind
    rw [State.rateAcknowledged_eq, purpose] at step
    refine ⟨_, _, step, rfl, fun clean => ?_, fun fault => ?_, ?_, fun clean => ?_, fun fault => ?_, rfl⟩
    · refine (State.setPort_self _ _ _).trans ?_
      simp only [PortRec.acknowledged, purpose, clean]
      rfl
    · refine (State.setPort_self _ _ _).trans ?_
      simp only [PortRec.acknowledged, purpose, fault]
      rfl
    · exact State.setPort_other _ _ _
    · simp only [clean, State.headResult, State.setPort_self, PortRec.acknowledged, purpose]
      rfl
    · simp only [fault]
      rfl
  · obtain ⟨attention, ports, frame⟩ := State.headFault_sets (s := s) (t := s) (p := p) .headProtocol 0 ready rfl rfl rfl
    have awake : (x.purpose == .startUp && x.kind == .probe) = false := by simp [other]
    rw [PortRec.faulted_exchanging exchange, awake] at ports
    refine ⟨_, exec_answer_wrong exchange early wrong, ?_, fun k other => ?_, attention, frame⟩
    · rw [ports]
      exact Table.get_set_self _ _ _
    · rw [ports]
      exact Table.get_set_ne _ _ _ _ other
  · constructor
    · simp only [exec, execProbeAnswer, State.awaited_none other]
    · simp only [exec, execSetRateAck, State.awaited_none other]

/-! ## Timeouts and status messages (R156, R157) -/

theorem State.probeTimedOut_unfitted {s : State} {p : Port} {x : Exchange} (unfitted : (s.ports.get p).head = .unfitted) :
    s.probeTimedOut p x =
      (s.setPort p { s.ports.get p with exchange := none, head := .unfitted, identity := none }).settlePort x.purpose
        (.refuse .headNoResponse) := by
  simp [State.probeTimedOut, State.endExchange_modify, unfitted]

theorem State.probeTimedOut_lost {s : State} {p : Port} {x : Exchange} (fitted : (s.ports.get p).head ≠ .unfitted)
    (ready : s.phase = .ready) :
    s.probeTimedOut p x =
      ((s.setPort p { s.ports.get p with exchange := none, head := .unfitted, identity := none }).raisePort p
        .addHeadLost).settlePort x.purpose (.refuse .headNoResponse) := by
  simp [State.probeTimedOut, State.endExchange_modify, fitted, ready]

theorem exec_headStatus_good {s : State} {p : Port} {ready : Bool} {condition : StatusCondition}
    (good : (s.ports.get p).head = .unfitted ∨ ready = true ∧ condition = .none) (detail : BitVec 16) :
    exec (.headStatusMessage p ready condition detail) s = .next s := by
  dsimp only [exec, execHeadStatusMessage]
  by_cases unfitted : (s.ports.get p).head = .unfitted
  · rw [if_pos unfitted]
  · obtain no | ⟨rfl, rfl⟩ := good
    · exact absurd no unfitted
    · rw [if_neg unfitted]

theorem exec_headStatus_bad {s : State} {p : Port} {ready : Bool} {condition : StatusCondition} {c : FaultCondition}
    (fitted : (s.ports.get p).head ≠ .unfitted)
    (bad : ready = false ∧ condition = .overdrive ∧ c = FaultCondition.overdrive ∨
      ready = false ∧ condition = .lockLost ∧ c = FaultCondition.lockLost ∨
      ready = true ∧ condition ≠ .none ∧ c = FaultCondition.headProtocol ∨
      ready = false ∧ condition = .none ∧ c = FaultCondition.headProtocol) (detail : BitVec 16) :
    exec (.headStatusMessage p ready condition detail) s = .next (s.headFault p c detail.toNat) := by
  dsimp only [exec, execHeadStatusMessage]
  rw [if_neg fitted]
  obtain ⟨rfl, rfl, rfl⟩ | ⟨rfl, rfl, rfl⟩ | ⟨rfl, some, rfl⟩ | ⟨rfl, rfl, rfl⟩ := bad
  case inr.inr.inl =>
    cases condition with
    | none => exact absurd rfl some
    | overdrive => rfl
    | lockLost => rfl
  all_goals rfl

/-- The record of a port that a status message faults. -/
theorem PortRec.faulted_status {r : PortRec} (awake : ∀ x, r.exchange = some x → x.purpose = .startUp → x.kind = .setRate)
    (c : FaultCondition) (n : Nat) (now : BitVec 64) :
    r.faulted c n now = { r with
      head := .fault, detail := some ⟨c, n, now⟩
      faultCount := if r.faultCount < 65535 then r.faultCount + 1 else r.faultCount
      exchange := r.exchange.map fun x => { x with faulted := true } } := by
  cases exchange : r.exchange with
  | none => rw [PortRec.faulted_free exchange, ← exchange]; cases r; cases exchange; rfl
  | some x =>
    have no : (x.purpose == .startUp && x.kind == .probe) = false := by
      rw [Bool.and_eq_false_iff]
      by_cases purpose : x.purpose = .startUp
      · exact .inr (by rw [awake x exchange purpose]; rfl)
      · exact .inl (by simpa using purpose)
    rw [PortRec.faulted_exchanging exchange, no]
    rfl

/-- Settles O50: by the message, by the kind of the exchange, and by whether the part is READY. -/
theorem aHeadFaultIsRecorded : Obligations.AHeadFaultIsRecorded := by
  intro s p r port
  subst port
  refine ⟨fun x exchange early => exec_timeout_early exchange early, fun x l exchange due purpose ready => ?_,
    fun ready condition detail good => exec_headStatus_good good detail,
    fun ready condition detail c fitted awake bad => ?_⟩
  · cases kind : x.kind with
    | probe =>
      have step := exec_timeout_probe exchange due kind
      by_cases unfitted : (s.ports.get p).head = .unfitted
      · rw [State.probeTimedOut_unfitted unfitted, purpose] at step
        refine ⟨_, _, step, rfl, fun _ _ => ⟨?_, rfl, rfl⟩, fun _ fitted => absurd unfitted fitted, fun no => ?_,
          State.setPort_other _ _ _, rfl, rfl⟩
        · refine (State.setPort_self _ _ _).trans ?_
          rw [← unfitted]
        · cases no
      · rw [State.probeTimedOut_lost unfitted ready, purpose] at step
        have self := s.setPort_self p { s.ports.get p with exchange := none, head := .unfitted, identity := none }
        obtain ⟨attention, ports, frame⟩ := State.raisePort_sets (s := s) (p := p) (o := (s.ports.get p).owner)
          (t := s.setPort p { s.ports.get p with exchange := none, head := .unfitted, identity := none }) .addHeadLost rfl rfl
          (by rw [self])
        rw [self] at ports
        rw [State.setPort_set] at ports
        generalize State.raisePort _ p .addHeadLost = t at step attention ports frame
        refine ⟨_, _, step, rfl, fun _ no => absurd no unfitted, fun _ _ => ⟨?_, attention⟩, fun no => ?_, fun k other => ?_,
          ?_, ?_⟩
        · exact (congrArg (·.get p) ports).trans (Table.get_set_self _ _ _)
        · cases no
        · exact (congrArg (·.get k) ports).trans (Table.get_set_ne _ _ _ _ other)
        · rw [frame]
          rfl
        · rw [frame]
          rfl
    | setRate =>
      have step := exec_timeout_setRate exchange due kind
      obtain ⟨attention, ports, frame⟩ := State.endExchange_headFault ready p
      have timed : s.rateTimedOut p x =
          ((s.endExchange p).headFault p .noResponse 0).completeHeld l (.refuse .headNoResponse) 0 := by
        simp only [State.rateTimedOut, purpose]
        rfl
      rw [timed] at step
      generalize (s.endExchange p).headFault p .noResponse 0 = t at step attention ports frame
      refine ⟨_, _, step, rfl, fun no => ?_, fun no => ?_, fun _ => ⟨?_, attention⟩, fun k other => ?_, ?_, ?_⟩
      · cases no
      · cases no
      · exact (congrArg (·.get p) ports).trans (Table.get_set_self _ _ _)
      · exact (congrArg (·.get k) ports).trans (Table.get_set_ne _ _ _ _ other)
      · rw [frame]
        rfl
      · rw [frame]
        rfl
  · have step := exec_headStatus_bad fitted bad detail
    by_cases phase : s.phase = .ready
    · obtain ⟨attention, ports, frame⟩ := State.headFault_sets (s := s) (t := s) (p := p) c detail.toNat phase rfl rfl rfl
      rw [PortRec.faulted_status awake] at ports
      refine ⟨_, _, step, rfl, fun k other => ?_, fun _ => ⟨?_, attention, frame⟩, fun no => absurd phase no⟩
      · rw [ports]
        exact Table.get_set_ne _ _ _ _ other
      · rw [ports]
        exact Table.get_set_self _ _ _
    · rw [State.headFault_starting phase, PortRec.faulted_status awake] at step
      exact ⟨_, _, step, rfl, State.setPort_other _ _ _, fun yes => absurd yes phase, fun _ => ⟨State.setPort_self _ _ _, rfl⟩⟩

end Sys2Proof.Machine
end

section
/-!
SUPPORT. The end of start-up (R190, R191) and CONFIGURE_PORT with its exchanges (R159 to R161).
-/

namespace Sys2Proof.Machine

/-! ## The end of start-up -/

theorem PortRec.starting_free {r : PortRec} (free : r.exchange = none) : r.starting = false := by
  rw [PortRec.starting, free]

theorem PortRec.starting_some {r : PortRec} {x : Exchange} (exchange : r.exchange = some x) :
    r.starting = (x.purpose == .startUp) := by
  rw [PortRec.starting, exchange]

/-- The last port to come to rest makes the part READY. -/
theorem State.checkReady_last {s : State} {p : Port} (probing : s.phase = .probing) (here : (s.ports.get p).starting = false)
    (last : s.lastToStart p) : s.checkReady = s.becomeReady := by
  have all : s.ports.cells.all (fun r => !r.starting) = true := by
    rw [List.all_eq_true]
    intro r mem
    obtain ⟨k, rfl⟩ := (Table.mem_cells _ _).1 mem
    by_cases same : k = p
    · simp [same, here]
    · simp [last k same]
  exact if_pos ⟨probing, all⟩

theorem State.checkReady_waits {s : State} {p : Port} (more : ¬ s.lastToStart p) : s.checkReady = s := by
  refine if_neg fun ⟨_, all⟩ => more fun k _ => ?_
  have := List.all_eq_true.1 all _ ((Table.mem_cells _ _).2 ⟨k, rfl⟩)
  simpa using this

theorem State.lastToStart_setPort (s : State) (p : Port) (r : PortRec) : (s.setPort p r).lastToStart p ↔ s.lastToStart p :=
  forall_congr' fun k => imp_congr_right fun other => by rw [s.setPort_other p r k other]

/-- What the part is once a port of start-up has come to rest with the record `k`. -/
theorem State.settleStart {s : State} {p : Port} {k : PortRec} (probing : s.phase = .probing) (free : k.exchange = none) :
    (s.setPort p k).checkReady.ports.get p = k ∧ s.otherPorts (s.setPort p k).checkReady p ∧
      (s.lastToStart p → s.BecameReady (s.setPort p k).checkReady) ∧
      (¬ s.lastToStart p → (s.setPort p k).checkReady.phase = .probing ∧ (s.setPort p k).checkReady.triggers = s.triggers) ∧
      (s.setPort p k).checkReady = { s with
        ports := (s.setPort p k).checkReady.ports, phase := (s.setPort p k).checkReady.phase
        triggers := (s.setPort p k).checkReady.triggers } := by
  have self := s.setPort_self p k
  have others := s.setPort_other p k
  by_cases last : s.lastToStart p
  · have here : ((s.setPort p k).ports.get p).starting = false := by rw [self, PortRec.starting_free free]
    rw [State.checkReady_last (s := s.setPort p k) probing here ((s.lastToStart_setPort p k).2 last)]
    exact ⟨self, others, fun _ => ⟨rfl, fun t => Table.get_map _ _ _⟩, fun more => absurd last more, rfl⟩
  · rw [State.checkReady_waits ((s.lastToStart_setPort p k).not.2 last)]
    exact ⟨self, others, fun yes => absurd yes last, fun _ => ⟨probing, rfl⟩, rfl⟩

section

variable {s : State} {p : Port} {x : Exchange}

theorem State.rateAcknowledged_startUp (purpose : x.purpose = .startUp) :
    s.rateAcknowledged p x = (s.setPort p (if x.faulted then { s.ports.get p with exchange := none, head := .fault }
      else { s.ports.get p with exchange := none, head := .ready, faultCount := 0 })).checkReady := by
  rw [State.rateAcknowledged_eq, purpose]
  simp only [PortRec.acknowledged, purpose]
  rfl

theorem State.probeTimedOut_startUp (starting : s.phase ≠ .ready) (purpose : x.purpose = .startUp) :
    s.probeTimedOut p x =
      (s.setPort p { s.ports.get p with exchange := none, head := .unfitted, identity := none }).checkReady := by
  simp [State.probeTimedOut, State.endExchange_modify, starting, purpose, State.settlePort]

theorem State.rateTimedOut_startUp (starting : s.phase ≠ .ready) (purpose : x.purpose = .startUp) :
    s.rateTimedOut p x = (s.setPort p ((s.ports.get p).silenced s.sceneTime)).checkReady := by
  have self : (s.endExchange p).ports.get p = { s.ports.get p with exchange := none } := State.setPort_self _ _ _
  have starting' : (s.endExchange p).phase ≠ .ready := starting
  simp only [State.rateTimedOut, purpose]
  rw [State.headFault_starting starting', self, PortRec.faulted_free (by rfl), State.endExchange, State.setPort_setPort]
  rfl

theorem State.probeAnswered_limit_startUp {max : Nat} (starting : s.phase ≠ .ready) (purpose : x.purpose = .startUp)
    (below : max < s.portRate p) (id : BitVec 32) :
    s.probeAnswered p x id max = (s.setPort p { s.ports.get p with
      identity := some ⟨id, max⟩, exchange := none, head := .fault, detail := some ⟨.rateLimit, max, s.sceneTime⟩
      faultCount := if (s.ports.get p).faultCount < 65535 then (s.ports.get p).faultCount + 1
        else (s.ports.get p).faultCount }).checkReady := by
  have starting' : (s.setPort p ((s.ports.get p).probed x id max)).phase ≠ .ready := starting
  rw [State.probeAnswered_limit below, purpose, State.headFault_starting starting', State.setPort_self,
    PortRec.faulted_free (by rfl), State.setPort_setPort]
  rfl

end

/-- Settles O54: the last SET_RATE of start-up, and each other way in which an exchange of start-up is met. -/
theorem theLastHeadMakesThePartReady : Obligations.TheLastHeadMakesThePartReady := by
  refine ⟨fun s p x exchange kind purpose clean early probing => ?_,
    fun s p r x count port exchange purpose probing counted => ⟨fun id max kind early fits => ?_, fun c k which => ?_,
      fun c id max early wrong => ?_⟩⟩
  · have step := exec_setRateAck_setRate exchange early kind
    rw [State.rateAcknowledged_startUp purpose, if_neg (by simp [clean])] at step
    obtain ⟨here, others, ready, waits, frame⟩ := State.settleStart (s := s) (p := p)
      (k := { s.ports.get p with exchange := none, head := .ready, faultCount := 0 }) probing rfl
    refine ⟨_, step, here, others, fun alone => ready fun k other => PortRec.starting_free (alone k other),
      fun k y other busy start => waits fun last => ?_, frame⟩
    have no := last k other
    rw [PortRec.starting_some busy, start] at no
    cases no
  · subst port
    have step := exec_probeAnswer_probe exchange early kind id max
    rw [← purpose]
    exact ⟨_, step, State.probeAnswered_begins fits id⟩
  · subst port counted
    have starting : s.phase ≠ .ready := by rw [probing]; exact PartPhase.noConfusion
    have rests : exec c s = .next (s.setPort p k).checkReady ∧ k.exchange = none := by
      obtain ⟨id, max, rfl, kind, early, below, rfl⟩ | ⟨rfl, due, kind, rfl⟩ | ⟨rfl, due, kind, rfl⟩ |
        ⟨rfl, early, kind, fault, rfl⟩ := which
      · rw [exec_probeAnswer_probe exchange early kind, State.probeAnswered_limit_startUp starting purpose below]
        exact ⟨rfl, rfl⟩
      · rw [exec_timeout_probe exchange due kind, State.probeTimedOut_startUp starting purpose]
        exact ⟨rfl, rfl⟩
      · rw [exec_timeout_setRate exchange due kind, State.rateTimedOut_startUp starting purpose]
        exact ⟨rfl, rfl⟩
      · rw [exec_setRateAck_setRate exchange early kind, State.rateAcknowledged_startUp purpose, if_pos fault]
        exact ⟨rfl, rfl⟩
    exact ⟨_, rests.1, State.settleStart probing rests.2⟩
  · subst port counted
    have starting : s.phase ≠ .ready := by rw [probing]; exact PartPhase.noConfusion
    have step := exec_answer_wrong exchange early wrong
    rw [State.headFault_starting starting, PortRec.faulted_exchanging exchange] at step
    refine ⟨_, step, (State.setPort_self _ _ _).trans ?_, State.setPort_other _ _ _, rfl⟩
    simp only [purpose, beq_self_eq_true, Bool.true_and, beq_iff_eq]

/-! ## CONFIGURE_PORT (R159, R160) -/

theorem eight_some {b : BitVec 8} {p : Fin 8} (e : eight b = some p) : p.val = b.toNat := by
  unfold eight at e
  split at e
  · cases e
    rfl
  · cases e

theorem four_some {b : BitVec 8} {l : Lane} (e : four b = some l) : l.val = b.toNat := by
  unfold four at e
  split at e
  · cases e
    rfl
  · cases e

theorem checkClock_ok {f : ClockField} {c : Clock} (ok : checkClock f = .ok c) :
    (∃ d, f = .synth d ∧ c = .synth d ∧ (d = 1 ∨ d = 2 ∨ d = 4 ∨ d = 8 ∨ d = 16)) ∨
      (∃ n, f = .external n ∧ c = .external n ∧ 1000000 ≤ n ∧ n ≤ 80000000) ∨
      ∃ b, ∃ k : Port, f = .follow b ∧ c = .follow k ∧ k.val = b.toNat := by
  cases f with
  | unknown => cases ok
  | synth d =>
    simp only [checkClock] at ok
    split at ok
    · cases ok
      exact .inl ⟨d, rfl, rfl, ‹_›⟩
    · cases ok
  | follow b =>
    obtain ⟨k, named, ok⟩ := want_bind_ok.1 ok
    cases ok
    exact .inr (.inr ⟨b, k, rfl, rfl, eight_some named⟩)
  | external n =>
    simp only [checkClock] at ok
    split at ok
    · cases ok
      exact .inr (.inl ⟨n, rfl, rfl, ‹_›⟩)
    · cases ok

theorem PortRec.open_iff (r : PortRec) : r.open = true ↔ r.exchange = none ∧ r.members = [] ∧ r.reservations = [] := by
  simp only [PortRec.open, PortRec.vacant, Bool.and_eq_true, List.isEmpty_iff, Option.isNone_iff_eq_none]
  tauto

theorem State.mem_followers (s : State) (p k : Port) : k ∈ s.followers p ↔ (s.ports.get k).clock = .follow p := by
  simp [State.followers]

theorem State.mem_fittedFollowers (s : State) (p k : Port) :
    k ∈ s.fittedFollowers p ↔ (s.ports.get k).clock = .follow p ∧ (s.ports.get k).head ≠ .unfitted := by
  simp [State.fittedFollowers, State.mem_followers]

theorem State.mem_portAndFollowers (s : State) (p k : Port) :
    k ∈ s.portAndFollowers p ↔ k = p ∨ (s.ports.get k).clock = .follow p := by
  simp [State.portAndFollowers]

/-- What an accepted CONFIGURE_PORT has passed, in the order of R159. -/
structure State.ConfigureChecks (s : State) (l : Lane) (q : ConfigurePortReq) (x : ConfigureFound) : Prop where
  port : x.port.val = q.port.toNat
  clock : checkClock q.clock = .ok x.clock
  budget : x.budget = q.budget ∧ 256 ≤ x.budget ∧ x.budget ≤ 8192
  owner : x.owner.val = q.owner.toNat
  lane : l ≠ 0 → (s.ports.get x.port).owner = l ∧ x.owner = l
  fitted : ∀ k ∈ neededHeads x.port x.clock, (s.ports.get k).head ≠ .unfitted
  follow : s.followAllowed x.port x.clock = true
  rate : ∀ k ∈ x.port :: s.fittedFollowers x.port, s.headTakes (s.clockRate x.clock) k = true
  vacant : ∀ k ∈ s.portAndFollowers x.port, (s.ports.get k).open = true

theorem State.checkConfigure_checks {s : State} {l : Lane} {q : ConfigurePortReq} {x : ConfigureFound}
    (e : s.checkConfigure l q = .ok x) : s.ConfigureChecks l q x := by
  obtain ⟨-, e⟩ := need_bind_ok.1 e
  obtain ⟨p, port, e⟩ := want_bind_ok.1 e
  obtain ⟨c, clock, e⟩ := checked_bind_ok.1 e
  obtain ⟨budget, e⟩ := need_bind_ok.1 e
  obtain ⟨owner, names, e⟩ := want_bind_ok.1 e
  obtain ⟨lane, e⟩ := need_bind_ok.1 e
  obtain ⟨fitted, e⟩ := needPorts_bind_ok.1 e
  obtain ⟨follow, e⟩ := needPorts_bind_ok.1 e
  obtain ⟨rate, e⟩ := needPorts_bind_ok.1 e
  obtain ⟨vacant, e⟩ := needPorts_bind_ok.1 e
  cases e
  simp only [Bool.and_eq_true, decide_eq_true_eq] at budget
  refine ⟨eight_some port, clock, ⟨rfl, budget.1, budget.2⟩, four_some names, fun other => ?_, fun k mem => ?_,
    follow p (List.mem_singleton.2 rfl), rate, vacant⟩
  · simpa [other] using lane
  · simpa using fitted k mem

/-- The clock source that an accepted CONFIGURE_PORT gives (R159). -/
theorem State.ConfigureChecks.clockTaken {s : State} {l : Lane} {q : ConfigurePortReq} {x : ConfigureFound}
    (h : s.ConfigureChecks l q x) : s.ClockTaken x.port q.clock x.clock := by
  obtain synth | external | ⟨b, k, field, clock, names⟩ := checkClock_ok h.clock
  · exact .inl synth
  · exact .inr (.inl external)
  · have follow := h.follow
    have fitted := h.fitted
    rw [clock] at follow fitted
    simp only [State.followAllowed, Bool.and_eq_true, bne_iff_ne, ne_eq, List.isEmpty_iff] at follow
    obtain ⟨⟨other, leads⟩, alone⟩ := follow
    refine .inr (.inr ⟨b, k, field, clock, names, other, fitted k (by simp [neededHeads]), fun j follows => ?_,
      fun j follows => ?_⟩)
    · rw [follows] at leads
      cases leads
    · have mem := (s.mem_followers x.port j).2 follows
      rw [alone] at mem
      cases mem

/-- A port that is followed is not given a leader. -/
theorem State.ConfigureChecks.ownRate {s : State} {l : Lane} {q : ConfigurePortReq} {x : ConfigureFound}
    (h : s.ConfigureChecks l q x) {p : Port} (follows : (s.ports.get p).clock = .follow x.port) :
    x.clock.ownRate = s.clockRate x.clock := by
  cases clock : x.clock with
  | synth d => rfl
  | external n => rfl
  | follow k =>
    have follow := h.follow
    rw [clock] at follow
    simp only [State.followAllowed, Bool.and_eq_true, List.isEmpty_iff] at follow
    have mem := (s.mem_followers x.port p).2 follows
    rw [follow.2] at mem
    cases mem

/-- The ports that a CONFIGURE_PORT tells. -/
def State.toldPorts (s : State) (p : Port) : List Port := p :: s.fittedFollowers p

theorem State.toldPorts_eq (s : State) (p : Port) :
    s.toldPorts p = p :: (List.finRange 8).filter fun k =>
      (s.ports.get k).clock == .follow p && (s.ports.get k).head != .unfitted := by
  rw [State.toldPorts, State.fittedFollowers, State.followers, List.filter_filter]
  simp only [Bool.and_comm]

theorem State.mem_toldPorts_self (s : State) (p : Port) : p ∈ s.toldPorts p := List.mem_cons_self ..

/-- The configuration written, before its exchanges begin (R160). -/
def State.configured (s : State) (l : Lane) (x : ConfigureFound) : State :=
  s.modifyPort x.port fun r =>
    { r with owner := x.owner, clock := x.clock, budget := x.budget, job := some ⟨l, s.toldPorts x.port, []⟩ }

theorem State.acceptConfigure_eq (s : State) (l : Lane) (x : ConfigureFound) :
    s.acceptConfigure l x =
      ((s.toldPorts x.port).foldl (fun s p => s.beginExchange p .setRate (.configure l x.port) false)
        (s.configured l x)).hold l := rfl

/-- Every told port's rate is that of the new clock source. -/
theorem State.configured_rate {s : State} {l : Lane} {q : ConfigurePortReq} {x : ConfigureFound} (h : s.ConfigureChecks l q x)
    (sound : s.followSound) {p : Port} (told : p ∈ s.toldPorts x.port) : (s.configured l x).portRate p = s.clockRate x.clock := by
  obtain ⟨here, others, -⟩ := s.modifyPort_one x.port fun r =>
    { r with owner := x.owner, clock := x.clock, budget := x.budget, job := some ⟨l, s.toldPorts x.port, []⟩ }
  have clock : ((s.configured l x).ports.get x.port).clock = x.clock := by rw [State.configured, here]
  obtain rfl | follower := List.mem_cons.1 told
  · rw [State.portRate, clock]
    cases source : x.clock with
    | synth d => rfl
    | external n => rfl
    | follow k =>
      obtain ⟨d, -, no, -⟩ | ⟨n, -, no, -⟩ | ⟨b, j, -, same, -, other, -⟩ := h.clockTaken
      · rw [source] at no; cases no
      · rw [source] at no; cases no
      · rw [source] at same
        cases same
        exact congrArg (fun r : PortRec => r.clock.ownRate) (others k other)
  · have follows := ((s.mem_fittedFollowers _ _).1 follower).1
    have same : p ≠ x.port := (sound p x.port follows).1.symm
    have kept : ((s.configured l x).ports.get p).clock = .follow x.port :=
      (congrArg PortRec.clock (others p same)).trans follows
    rw [State.portRate, kept, State.clockRate, clock, h.ownRate follows]

theorem State.toldPorts_nodup {s : State} (sound : s.followSound) (p : Port) : (s.toldPorts p).Nodup := by
  refine List.nodup_cons.2 ⟨fun mem => ?_, ((List.nodup_finRange 8).filter _).filter _⟩
  exact (sound p p ((s.mem_fittedFollowers _ _).1 mem).1).1 rfl

/-- What an accepted CONFIGURE_PORT changes (R160). -/
theorem State.acceptConfigure_spec {s : State} {l : Lane} {q : ConfigurePortReq} {x : ConfigureFound} (h : s.ConfigureChecks l q x)
    (sound : s.followSound) :
    (∀ p ∈ s.toldPorts x.port, p ≠ x.port → (s.acceptConfigure l x).ports.get p = { s.ports.get p with
      tag := (s.ports.get p).tag + 1
      exchange := some ⟨.setRate, (s.ports.get p).tag + 1, .configure l x.port, s.refTime + 50000, s.sceneTime, false⟩ }) ∧
    (s.acceptConfigure l x).ports.get x.port = { s.ports.get x.port with
      owner := x.owner, clock := x.clock, budget := x.budget, job := some ⟨l, s.toldPorts x.port, []⟩
      tag := (s.ports.get x.port).tag + 1
      exchange := some
        ⟨.setRate, (s.ports.get x.port).tag + 1, .configure l x.port, s.refTime + 50000, s.sceneTime, false⟩ } ∧
    (∀ p ∈ s.toldPorts x.port, (s.acceptConfigure l x).portRate p = s.clockRate x.clock) ∧
    (∀ p, p ∉ s.toldPorts x.port → (s.acceptConfigure l x).ports.get p = s.ports.get p) ∧
    (s.acceptConfigure l x).sent = s.sent ++ (s.toldPorts x.port).map (fun p =>
      .setRate p ((s.ports.get p).tag + 1) (s.clockRate x.clock) ((s.acceptConfigure l x).runsExternal p)) ∧
    (s.acceptConfigure l x).units.get l = { s.units.get l with state := .active .held } ∧
    s.otherUnits (s.acceptConfigure l x) l ∧
    s.acceptConfigure l x = { s with
      ports := (s.acceptConfigure l x).ports, units := (s.acceptConfigure l x).units, sent := (s.acceptConfigure l x).sent } := by
  obtain ⟨here, others, -⟩ := s.modifyPort_one x.port fun r =>
    { r with owner := x.owner, clock := x.clock, budget := x.budget, job := some ⟨l, s.toldPorts x.port, []⟩ }
  obtain ⟨frame, ports, sent⟩ := State.foldl_beginExchange .setRate (.configure l x.port) (s.toldPorts x.port)
    (State.toldPorts_nodup sound x.port) (s.configured l x)
  rw [State.acceptConfigure_eq]
  generalize (s.toldPorts x.port).foldl (fun s p => s.beginExchange p .setRate (.configure l x.port) false)
    (s.configured l x) = t at frame ports sent ⊢
  have clocks : ∀ k, ((t.hold l).ports.get k).clock = ((s.configured l x).ports.get k).clock := fun k => by
    refine (congrArg PortRec.clock (ports k)).trans ?_
    split
    all_goals rfl
  have rates := State.rates_congr clocks
  have tags : ∀ k, ((s.configured l x).ports.get k).tag = (s.ports.get k).tag := fun k => by
    by_cases same : k = x.port
    · subst same
      rw [State.configured, here]
    · rw [State.configured, others k same]
  refine ⟨fun p told other => ?_, ?_, fun p told => ?_, fun p untold => ?_, ?_, ?_, fun k other => ?_, ?_⟩
  · refine (ports p).trans ?_
    rw [if_pos told, State.configured, others p other]
    rfl
  · refine (ports x.port).trans ?_
    rw [if_pos (s.mem_toldPorts_self _), State.configured, here]
    rfl
  · rw [(rates p).1, State.configured_rate h sound told]
  · refine (ports p).trans ?_
    rw [if_neg untold]
    exact others p fun same => untold (same ▸ s.mem_toldPorts_self _)
  · refine sent.trans (congrArg (s.sent ++ ·) (List.map_congr_left fun p told => ?_))
    simp only [tags, State.configured_rate h sound told, (rates p).2]
  · rw [frame]
    exact Table.get_set_self _ _ _
  · rw [frame]
    exact Table.get_set_ne _ _ _ _ other
  · rw [frame]
    rfl

/-! ## The exchanges of a CONFIGURE_PORT (R161) -/

/-- Whether a port's exchange is one of the CONFIGURE_PORT at `home`. -/
theorem State.configuring_congr {s t : State} {k : Port} (same : (t.ports.get k).exchange = (s.ports.get k).exchange) (l : Lane)
    (home : Port) : t.configuring l home k = s.configuring l home k := by
  rw [State.configuring, State.configuring, same]

/-- The completion of a CONFIGURE_PORT once the exchange at `p` has ended. -/
theorem State.settleConfigure_spec {s : State} {home p : Port} {j : ConfigureJob} (job : (s.ports.get home).job = some j)
    (free : (s.ports.get p).exchange = none) :
    (∀ k, (s.settleConfigure home).ports.get k = { s.ports.get k with job := ((s.settleConfigure home).ports.get k).job }) ∧
    (∀ k, k ≠ home → (s.settleConfigure home).ports.get k = s.ports.get k) ∧
    (s.othersConfiguring j home p →
      ((s.settleConfigure home).ports.get home).job = some j ∧ (s.settleConfigure home).inFlight = s.inFlight) ∧
    (¬ s.othersConfiguring j home p → ((s.settleConfigure home).ports.get home).job = none ∧
      ∃ a, (s.settleConfigure home).ConfigureEnds j a ∧
        (s.settleConfigure home).inFlight = s.inFlight ++ [.heldDone j.lane a 0]) ∧
    s.settleConfigure home = { s with
      ports := (s.settleConfigure home).ports, inFlight := (s.settleConfigure home).inFlight } := by
  have any : (j.told.any fun k => s.configuring j.lane home k) = true ↔ s.othersConfiguring j home p := by
    rw [List.any_eq_true]
    refine exists_congr fun k => and_congr_right fun _ => ⟨fun busy => ⟨fun same => ?_, busy⟩, fun busy => busy.2⟩
    subst same
    rw [State.configuring, free] at busy
    cases busy
  by_cases more : s.othersConfiguring j home p
  · have waits : s.settleConfigure home = s := by
      simp only [State.settleConfigure, job]
      exact if_pos (any.2 more)
    rw [waits]
    exact ⟨fun _ => rfl, fun _ _ => rfl, fun _ => ⟨job, rfl⟩, fun no => absurd more no, rfl⟩
  · have ends : s.settleConfigure home =
        (s.setPort home { s.ports.get home with job := none }).completeHeld j.lane (s.configureAnswer j) 0 := by
      simp only [State.settleConfigure, job]
      exact if_neg (any.not.2 more)
    have self := s.setPort_self home { s.ports.get home with job := none }
    have others := s.setPort_other home { s.ports.get home with job := none }
    have heads : ∀ k, ((s.setPort home { s.ports.get home with job := none }).ports.get k).head = (s.ports.get k).head := fun k => by
      by_cases same : k = home
      · subst same
        rw [self]
      · rw [others k same]
    rw [ends]
    refine ⟨fun k => ?_, others, fun yes => absurd yes more, fun _ => ⟨congrArg PortRec.job self, s.configureAnswer j,
      ⟨fun none => ?_, fun q silent least => ?_⟩, rfl⟩, rfl⟩
    · by_cases same : k = home
      · subst same
        exact self.trans (by rw [State.completeHeld_eq, self])
      · have other := others k same
        exact other.trans (by rw [State.completeHeld_eq, other])
    · simp only [State.configureAnswer, none, State.headStates, State.completeHeld_eq, heads]
      rfl
    · have first : ((List.finRange 8).find? fun k => j.silent.contains k) = some q := by
        refine find_finRange_first (by simpa using silent) fun k lt => ?_
        simp only [Bool.eq_false_iff, ne_eq, List.contains_iff_mem]
        exact fun mem => absurd (least k mem) (not_le.2 lt)
      simp only [State.configureAnswer, first, State.headStates, State.completeHeld_eq, heads]

theorem State.othersConfiguring_congr {s t : State} {i j : ConfigureJob} {home p : Port} (lane : i.lane = j.lane) (told : i.told = j.told)
    (same : ∀ k, k ≠ p → (t.ports.get k).exchange = (s.ports.get k).exchange) :
    t.othersConfiguring i home p ↔ s.othersConfiguring j home p := by
  unfold State.othersConfiguring
  rw [told, lane]
  exact exists_congr fun k => and_congr_right fun _ => and_congr_right fun other => by
    rw [State.configuring_congr (same k other)]

theorem State.PortAttentionSet.congr {s t u : State} {l : Lane} (a : s.PortAttentionSet t l) (units : u.units = t.units)
    (sent : u.sent = t.sent) : s.PortAttentionSet u l := by
  obtain ⟨own, others, told⟩ := a
  exact ⟨by rw [units, own], fun k other => by rw [units, others k other], by rw [sent, told]⟩

/-- A told port that has not answered is noted in the job of its CONFIGURE_PORT. -/
theorem State.noteSilent_spec {s : State} {home : Port} {j : ConfigureJob} (job : (s.ports.get home).job = some j) (p : Port) :
    ((s.noteSilent home p).ports.get home).job = some { j with silent := j.silent ++ [p] } ∧
    (∀ k, (s.noteSilent home p).ports.get k = { s.ports.get k with job := ((s.noteSilent home p).ports.get k).job }) ∧
    (∀ k, k ≠ home → (s.noteSilent home p).ports.get k = s.ports.get k) ∧
    s.noteSilent home p = { s with ports := (s.noteSilent home p).ports } := by
  have self : (s.noteSilent home p).ports.get home =
      { s.ports.get home with job := some { j with silent := j.silent ++ [p] } } := by
    rw [State.noteSilent, State.setPort_self, job]
    rfl
  have others : ∀ k, k ≠ home → (s.noteSilent home p).ports.get k = s.ports.get k := s.setPort_other home _
  refine ⟨by rw [self], fun k => ?_, others, rfl⟩
  by_cases same : k = home
  · subst same
    rw [self]
  · rw [others k same]

/-- Settles O48: the request, and an exchange of it that is answered or times out. -/
theorem configureTellsTheHeads : Obligations.ConfigureTellsTheHeads := by
  refine ⟨fun s l q x told handed sound ok told_eq => ?_,
    fun s p home r x j port exchange kind purpose job => ⟨fun early => ?_, fun due ready => ?_⟩⟩
  · have h := State.checkConfigure_checks ok
    have told_eq : told = s.toldPorts x.port := told_eq.trans (s.toldPorts_eq x.port).symm
    subst told_eq
    have vacant : ∀ p, p = x.port ∨ (s.ports.get p).clock = .follow x.port → (s.ports.get p).exchange = none ∧
        (s.ports.get p).members = [] ∧ (s.ports.get p).reservations = [] := fun p which =>
      (PortRec.open_iff _).1 (h.vacant p ((s.mem_portAndFollowers _ _).2 which))
    have fitted : (s.ports.get x.port).head ≠ .unfitted := h.fitted _ (by cases x.clock <;> simp [neededHeads])
    refine ⟨h.port, h.owner, h.budget.1, h.budget.2.1, h.budget.2.2, h.clockTaken, h.lane, fun p follows => vacant p (.inr follows),
      fun p mem => ?_, _, exec_configurePort_accepted handed ok, State.acceptConfigure_spec h sound⟩
    have takes : ∀ i, (s.ports.get p).identity = some i → s.clockRate x.clock ≤ i.maxRate := fun i identity => by
      simpa [State.headTakes, identity] using h.rate p mem
    obtain rfl | follower := List.mem_cons.1 mem
    · obtain ⟨free, members, reservations⟩ := vacant _ (.inl rfl)
      exact ⟨fitted, free, members, reservations, takes⟩
    · obtain ⟨follows, head⟩ := (s.mem_fittedFollowers _ _).1 follower
      obtain ⟨free, members, reservations⟩ := vacant p (.inr follows)
      exact ⟨head, free, members, reservations, takes⟩
  · subst port
    have step := exec_setRateAck_setRate exchange early kind
    have ended : PortRec.acknowledged { s.ports.get p with exchange := none } x = { s.ports.get p with exchange := none } := by
      simp only [PortRec.acknowledged, purpose]
    rw [State.rateAcknowledged_eq, ended, purpose] at step
    have self := s.setPort_self p { s.ports.get p with exchange := none }
    have others := s.setPort_other p { s.ports.get p with exchange := none }
    have frame : s.setPort p { s.ports.get p with exchange := none } =
        { s with ports := (s.setPort p { s.ports.get p with exchange := none }).ports } := rfl
    generalize s.setPort p { s.ports.get p with exchange := none } = t at step self others frame
    have jobHere : (t.ports.get home).job = some j := by
      by_cases same : home = p
      · subst same
        rw [self]
        exact job
      · rw [others home same, job]
    have exchanges : ∀ k, k ≠ p → (t.ports.get k).exchange = (s.ports.get k).exchange := fun k other => by rw [others k other]
    obtain ⟨ports, elsewhere, waits, ends, settled⟩ := State.settleConfigure_spec (p := p) jobHere (by rw [self])
    have inFlight : t.inFlight = s.inFlight := by rw [frame]
    refine ⟨t.settleConfigure home, step, ?_, fun other => ⟨?_, ?_⟩, fun k notP notHome => ?_, fun more => ?_, fun done => ?_, ?_⟩
    · rw [ports p, self]
    · rw [elsewhere p other, self]
    · rw [ports home, others home other.symm]
    · rw [elsewhere k notHome, others k notP]
    · rw [← inFlight]
      exact waits ((State.othersConfiguring_congr rfl rfl exchanges).2 more)
    · rw [← inFlight]
      exact ends ((State.othersConfiguring_congr rfl rfl exchanges).not.2 done)
    · rw [settled, frame]
  · subst port
    have step := exec_timeout_setRate exchange due kind
    have timed : s.rateTimedOut p x = (((s.endExchange p).headFault p .noResponse 0).noteSilent home p).settleConfigure home := by
      simp only [State.rateTimedOut, purpose]
      rfl
    rw [timed] at step
    obtain ⟨attention, ports, frame⟩ := State.endExchange_headFault ready p
    generalize (s.endExchange p).headFault p .noResponse 0 = v at step attention ports frame
    have self : v.ports.get p = { (s.ports.get p).silenced s.sceneTime with
        attention := true, causes := { (s.ports.get p).causes with portFault := true } } := by
      rw [ports]
      exact Table.get_set_self _ _ _
    have others : ∀ k, k ≠ p → v.ports.get k = s.ports.get k := fun k other => by
      rw [ports]
      exact Table.get_set_ne _ _ _ _ other
    have jobHere : (v.ports.get home).job = some j := by
      by_cases same : home = p
      · subst same
        rw [self]
        exact job
      · rw [others home same, job]
    obtain ⟨noted, portsNoted, elsewhereNoted, frameNoted⟩ := State.noteSilent_spec jobHere p
    generalize v.noteSilent home p = t at step noted portsNoted elsewhereNoted frameNoted
    have exchanges : ∀ k, k ≠ p → (t.ports.get k).exchange = (s.ports.get k).exchange := fun k other => by
      rw [portsNoted k, others k other]
    have free : (t.ports.get p).exchange = none := by
      rw [portsNoted p, self]
      rfl
    obtain ⟨portsEnd, elsewhere, waits, ends, settled⟩ := State.settleConfigure_spec noted free
    have inFlight : t.inFlight = s.inFlight := by rw [frameNoted, frame]
    refine ⟨t.settleConfigure home, _, step, rfl, ?_, fun other => ⟨?_, ?_⟩, fun k notP notHome => ?_, fun more => ?_,
      fun done => ?_, attention.congr (by rw [settled, frameNoted]) (by rw [settled, frameNoted]), ?_⟩
    · rw [portsEnd p, portsNoted p, self]
      rfl
    · rw [elsewhere p other, elsewhereNoted p other, self]
      rfl
    · rw [portsEnd home, portsNoted home, others home other.symm]
    · rw [elsewhere k notHome, elsewhereNoted k notHome, others k notP]
    · rw [← inFlight]
      exact waits ((State.othersConfiguring_congr rfl rfl exchanges).2 more)
    · rw [← inFlight]
      exact ends ((State.othersConfiguring_congr rfl rfl exchanges).not.2 done)
    · rw [settled, frameNoted, frame]

end Sys2Proof.Machine
end

section
/-!
SUPPORT. The grant (R69 to R73) and the completed reads (R77, R85 to R90).
-/

namespace Sys2Proof.Machine

/-! ## The head of the grant queue (R69) -/

/-- The better of the best waiting record so far and the next one of the queue. -/
def State.betterWaiting (s : State) (best : Option EmitterHandle) (h : EmitterHandle) : Option EmitterHandle :=
  match best with
  | none => some h
  | some b => if s.queuePriority b < s.queuePriority h then some h else best

theorem State.queueHead_eq (s : State) : s.queueHead = s.grantQueue.foldl s.betterWaiting none := rfl

/-- Among records below a priority, the best stays below it. -/
theorem State.foldl_better_below {s : State} {n : Nat} (ks : List EmitterHandle) (low : ∀ k ∈ ks, s.queuePriority k < n)
    (best : Option EmitterHandle) (lowBest : ∀ b, best = some b → s.queuePriority b < n) :
    ∀ b, ks.foldl s.betterWaiting best = some b → s.queuePriority b < n := by
  induction ks generalizing best with
  | nil => exact lowBest
  | cons k ks ih =>
    refine ih (fun k mem => low k (List.mem_cons_of_mem _ mem)) _ fun b chosen => ?_
    have here := low k (List.mem_cons_self ..)
    unfold State.betterWaiting at chosen
    split at chosen
    · cases chosen
      exact here
    · split at chosen
      · cases chosen
        exact here
      · exact lowBest b chosen

/-- A record stays the best among records that are not above it. -/
theorem State.foldl_better_stays {s : State} {h : EmitterHandle} (ks : List EmitterHandle)
    (low : ∀ k ∈ ks, s.queuePriority k ≤ s.queuePriority h) : ks.foldl s.betterWaiting (some h) = some h := by
  induction ks with
  | nil => rfl
  | cons k ks ih =>
    have stays : s.betterWaiting (some h) k = some h := if_neg (Nat.not_lt.2 (low k (List.mem_cons_self ..)))
    rw [List.foldl_cons, stays]
    exact ih fun k mem => low k (List.mem_cons_of_mem _ mem)

theorem State.queueHead_first {s : State} {h : EmitterHandle} {before after : List EmitterHandle}
    (queue : s.grantQueue = before ++ h :: after) (lower : ∀ k ∈ before, s.queuePriority k < s.queuePriority h)
    (later : ∀ k ∈ after, s.queuePriority k ≤ s.queuePriority h) : s.queueHead = some h := by
  rw [State.queueHead_eq, queue, List.foldl_append, List.foldl_cons]
  have chosen : s.betterWaiting (before.foldl s.betterWaiting none) h = some h := by
    cases best : before.foldl s.betterWaiting none with
    | none => rfl
    | some b => exact if_pos (State.foldl_better_below before lower none (fun _ no => by cases no) b best)
  rw [chosen]
  exact State.foldl_better_stays after later

theorem State.freeSlot_first {s : State} {n : SlotNo} (free : (s.slots.get n).owner = none)
    (first : ∀ m, m < n → (s.slots.get m).owner ≠ none) : s.freeSlot = some n :=
  find_finRange_first (by simp [free]) fun m lt => by simpa using Option.isSome_iff_ne_none.2 (first m lt)

/-! ## Records passed over (R71) -/

theorem State.modifyRecord_recordAt (s : State) (h g : EmitterHandle) (f : Record → Record) :
    (s.modifyRecord h f).recordAt g = if g = h then (s.recordAt h).map f else s.recordAt g := by
  cases e : s.recordAt h with
  | none =>
    have same : s.modifyRecord h f = s := by simp [State.modifyRecord, e]
    rw [same]
    split
    · rename_i here
      rw [here, e]
      rfl
    · rfl
  | some r =>
    rw [State.modifyRecord_some e]
    split
    · rename_i here
      subst here
      exact State.recordAt_putRecord e _
    · rename_i other
      exact State.recordAt_putRecord_ne e other

theorem State.modifyRecord_frame (s : State) (h : EmitterHandle) (f : Record → Record) :
    s.modifyRecord h f = { s with entries := (s.modifyRecord h f).entries } := by
  unfold State.modifyRecord
  split
  all_goals rfl

theorem State.modifyRecord_otherEntry (s : State) {h : EmitterHandle} (f : Record → Record) {i : EntryNo} (other : h.slot ≠ i) :
    (s.modifyRecord h f).entries.get i = s.entries.get i := by
  unfold State.modifyRecord
  split
  · exact Table.get_set_ne _ _ _ _ other.symm
  · rfl

/-- The records of a list of handles, each changed once. -/
theorem State.foldl_modifyRecord (f : Record → Record) (hs : List EmitterHandle) (nodup : hs.Nodup) (s : State) :
    (∀ g, (hs.foldl (fun s k => s.modifyRecord k f) s).recordAt g =
      if g ∈ hs then (s.recordAt g).map f else s.recordAt g) ∧
    (∀ i, (∀ h ∈ hs, h.slot ≠ i) → (hs.foldl (fun s k => s.modifyRecord k f) s).entries.get i = s.entries.get i) ∧
    hs.foldl (fun s k => s.modifyRecord k f) s =
      { s with entries := (hs.foldl (fun s k => s.modifyRecord k f) s).entries } := by
  induction hs generalizing s with
  | nil => exact ⟨fun g => rfl, fun i _ => rfl, rfl⟩
  | cons h hs ih =>
    obtain ⟨fresh, nodup⟩ := List.nodup_cons.1 nodup
    obtain ⟨records, others, frame⟩ := ih nodup (s.modifyRecord h f)
    refine ⟨fun g => ?_, fun i other => ?_, ?_⟩
    · rw [List.foldl_cons, records, State.modifyRecord_recordAt]
      by_cases same : g = h
      · subst same
        simp [fresh]
      · simp [same]
    · rw [List.foldl_cons, others i fun g mem => other g (List.mem_cons_of_mem _ mem)]
      exact State.modifyRecord_otherEntry s f (other h (List.mem_cons_self ..))
    · rw [List.foldl_cons, frame, State.modifyRecord_frame]

theorem takeWhile_ne {h : EmitterHandle} {before after : List EmitterHandle} (fresh : h ∉ before) :
    ((before ++ h :: after).takeWhile fun k => k != h) = before := by
  rw [List.takeWhile_append_of_pos fun k mem => by simpa using fun same : k = h => fresh (same ▸ mem), List.takeWhile_cons]
  simp

theorem filter_ne {h : EmitterHandle} {before after : List EmitterHandle} (nodup : (before ++ h :: after).Nodup) :
    ((before ++ h :: after).filter fun k => k != h) = before ++ after := by
  obtain ⟨-, rest, apart⟩ := List.nodup_append.1 nodup
  have inBefore : ∀ k ∈ before, (k != h) = true := fun k mem => by simpa using apart k mem h (List.mem_cons_self ..)
  have inAfter : ∀ k ∈ after, (k != h) = true := fun k mem => by
    simpa using fun same : k = h => (List.nodup_cons.1 rest).1 (same ▸ mem)
  rw [List.filter_append, List.filter_cons, List.filter_eq_self.2 inBefore, List.filter_eq_self.2 inAfter]
  simp

/-! ## The grant (R70, R71, R73) -/

/-- The record that a grant leaves, PRIMING. -/
def Record.granted (r : Record) : Record := { r with state := .priming, primedNoted := false }

/-- The state of a grant before its first run is issued. -/
def State.grantedSlot (s : State) (h : EmitterHandle) (n : SlotNo) (r : Record) (c : Clip) : State :=
  (({ s.ageBefore h with grantQueue := (s.ageBefore h).grantQueue.filter fun k => k != h } : State).setSlot n
    (.granted h c.rate r.startOffset)).putRecord h.slot r.granted

theorem State.grantTo_eq {s : State} {h : EmitterHandle} {r : Record} {c : Clip} (e : s.recordAt h = some r)
    (clip : s.clipAt r.clip = some c) (n : SlotNo) : s.grantTo h n = (s.grantedSlot h n r c).issueRun n := by
  simp only [State.grantTo, e, clip]
  rfl

/-- Settles O36: the head of the queue takes the lowest-numbered free slot, where its rate fits. -/
theorem aGrantTakesTheHead : Obligations.AGrantTakesTheHead := by
  intro s h before after n r c queue lower later nodup e clip free first
  have head := State.queueHead_first queue lower later
  have slot := State.freeSlot_first free first
  refine ⟨fun fits => ?_, fun exceeds => ?_⟩
  · have grantable : s.grantable = some (h, n) := by
      simp [State.grantable, head, slot, e, clip, fits]
    have step : exec .grant s = .next (s.grantTo h n) := by
      simp only [exec, execGrant, grantable]
    rw [queue] at nodup
    have fresh : h ∉ before := fun mem => (List.nodup_append.1 nodup).2.2 h mem h (List.mem_cons_self ..) rfl
    have aged : s.ageBefore h = before.foldl (fun s k => s.modifyRecord k Record.passOver) s := by
      rw [State.ageBefore, queue, takeWhile_ne fresh]
    obtain ⟨records, entries, frame⟩ := State.foldl_modifyRecord Record.passOver before (List.nodup_append.1 nodup).1 s
    rw [← aged] at records entries frame
    have queueAged : (s.ageBefore h).grantQueue = s.grantQueue := by rw [frame]
    have named : (s.ageBefore h).recordAt h = some r := by rw [records, if_neg fresh, e]
    have placed : (s.grantedSlot h n r c).recordAt h = some r.granted :=
      State.recordAt_putRecord (s := ({ s.ageBefore h with
        grantQueue := (s.ageBefore h).grantQueue.filter fun k => k != h } : State).setSlot n (.granted h c.rate r.startOffset))
        named r.granted
    have slots : (s.grantedSlot h n r c).slots = s.slots.set n (.granted h c.rate r.startOffset) := by
      rw [State.grantedSlot, frame]
      rfl
    have here : (s.grantedSlot h n r c).slots.get n = .granted h c.rate r.startOffset := by rw [slots, Table.get_set_self]
    have clip' : (s.grantedSlot h n r c).clipAt r.clip = some c := by
      have clips : (s.grantedSlot h n r c).clips = s.clips := by
        rw [State.grantedSlot, frame]
        rfl
      rw [State.clipAt, clips]
      exact clip
    obtain ⟨y, next, issued, run⟩ :=
      State.issueRun_spec (State.slotView_eq (by rw [here]; rfl) placed clip' : (s.grantedSlot h n r c).slotView n = _)
    have tag : (s.grantedSlot h n r c).nextTag = s.nextTag := by
      rw [State.grantedSlot, frame]
      rfl
    rw [here, tag] at run
    rw [State.grantTo_eq e clip, issued] at step
    refine ⟨_, step, ?_, placed, ?_, fun m other => ?_, fun k q mem record => ?_, fun i other apart => ?_, ?_⟩
    · have left : (s.grantedSlot h n r c).grantQueue = s.grantQueue.filter fun k => k != h := by
        rw [← queueAged]
        rfl
      exact left.trans (by rw [queue, filter_ne nodup])
    · rw [Table.get_set_self]
      exact run
    · rw [Table.get_set_ne _ _ _ _ other, slots, Table.get_set_ne _ _ _ _ other]
    · have other : k ≠ h := fun same => fresh (same ▸ mem)
      have passed : (s.ageBefore h).recordAt k = some q.passOver := by rw [records, if_pos mem, record]; rfl
      exact (State.recordAt_putRecord_ne (a := ({ s.ageBefore h with
        grantQueue := (s.ageBefore h).grantQueue.filter fun k => k != h } : State).setSlot n (.granted h c.rate r.startOffset))
        named other).trans passed
    · exact (Table.get_set_ne _ _ _ _ other).trans (entries i apart)
    · rw [State.grantedSlot, frame]
      rfl
  · have none : s.grantable = none := by
      simp [State.grantable, head, slot, e, clip, Nat.not_le.2 exceeds]
    simp only [exec, execGrant, none]

/-! ## Completed reads (R77, R85 to R90) -/

section

variable {s : State} {n : SlotNo}

theorem State.liveRead_some {f : Fetch} (fetch : (s.slots.get n).fetch = some f) : s.liveRead n f.tag f.demand = some f := by
  simp [State.liveRead, fetch]

theorem State.liveRead_none {tag : Nat} {demand : Bool}
    (other : ∀ f, (s.slots.get n).fetch = some f → f.tag ≠ tag ∨ f.demand ≠ demand) : s.liveRead n tag demand = none := by
  unfold State.liveRead
  cases fetch : (s.slots.get n).fetch with
  | none => rfl
  | some f =>
    refine if_neg fun ⟨tags, kinds⟩ => ?_
    obtain no | no := other f fetch
    · exact no tags
    · exact no kinds

end

/-- What a completed read with samples leaves, before priming is judged and the next run is issued. -/
def State.readIn (s : State) (n : SlotNo) (h : EmitterHandle) (r : Record) (c : Clip) (f : Fetch) : State :=
  if f.demand then (s.appendRun n r c f.run).post (.recovered h) else s.appendRun n r c f.run

/-- What an uncorrectable read leaves. -/
def State.readFailed (s : State) (n : SlotNo) (h : EmitterHandle) (r : Record) (f : Fetch) : State :=
  if f.demand then (s.setSlot n { s.slots.get n with fetch := none }).post (.failure h) else s.stall n r f.run

/-- A completed read of a slot, whether it is one of the window or a demand read. -/
theorem exec_readDone {s : State} {n : SlotNo} {f : Fetch} {h : EmitterHandle} {r : Record} {c : Clip} {o : ReadOutcome} {e : Instr}
    (fetch : (s.slots.get n).fetch = some f) (view : s.slotView n = some (h, r, c))
    (which : f.demand = false ∧ e = .runReadDone n f.tag o ∨ f.demand = true ∧ e = .demandReadDone n f.tag o) :
    exec e s = .next (if f.discarded then (s.post (.readCount f.clip o)).disregardRead n
      else if o = .uncorrectable then (s.post (.readCount f.clip o)).readFailed n h r f
      else (((s.post (.readCount f.clip o)).readIn n h r c f).checkPrimed n).issueRun n) := by
  have live := State.liveRead_some fetch
  obtain ⟨demand, rfl⟩ | ⟨demand, rfl⟩ := which
  · rw [demand] at live
    simp only [exec, execRunReadDone, live, view, State.readFailed, State.readIn, demand]
    split
    · rfl
    · split
      all_goals rfl
  · rw [demand] at live
    simp only [exec, execDemandReadDone, live, view, State.readFailed, State.readIn, demand]
    split
    · rfl
    · split
      all_goals rfl

/-- The slot of a completed read, with its samples in the window. -/
def StreamSlot.filled (x : StreamSlot) (s : State) (r : Record) (c : Clip) (f : Fetch) : StreamSlot :=
  { x with
    fetch := none, failed := none, fetchState := .running
    window := x.window ++ s.readRun c f.run, nextPos := r.loop.after c.length (f.run.start + f.run.len - 1) }

theorem State.readIn_eq (s : State) (n : SlotNo) (h : EmitterHandle) (r : Record) (c : Clip) (f : Fetch) :
    s.readIn n h r c f = { s with
      slots := s.slots.set n ((s.slots.get n).filled s r c f)
      inFlight := s.inFlight ++ if f.demand then [.recovered h] else [] } := by
  unfold State.readIn
  split
  · rfl
  · rw [List.append_nil]
    rfl

/-- A slot's view stands while its owner stays and records and clips are not touched. -/
theorem State.slotView_congr {s t : State} {n : SlotNo} (owner : (t.slots.get n).owner = (s.slots.get n).owner)
    (entries : t.entries = s.entries) (clips : t.clips = s.clips) : t.slotView n = s.slotView n := by
  simp only [State.slotView, State.recordAt, State.clipAt, owner, entries, clips]

theorem State.slotView_setSlot {s : State} {n : SlotNo} {x : StreamSlot} (owner : x.owner = (s.slots.get n).owner) :
    (s.setSlot n x).slotView n = s.slotView n :=
  State.slotView_congr (t := s.setSlot n x) ((congrArg StreamSlot.owner (Table.get_set_self _ _ _)).trans owner) rfl rfl

/-- An uncorrectable read of the window: the slot is STALLED, and in PRIMING it issues the demand read. -/
theorem State.stall_playing (s : State) (n : SlotNo) {r : Record} (playing : r.state ≠ .priming) (run : Run) :
    s.stall n r run = s.setSlot n { s.slots.get n with fetch := none, fetchState := .stalled, failed := some run } := by
  simp only [State.stall, if_neg playing]

theorem State.issueDemand_eq {s : State} {n : SlotNo} {h : EmitterHandle} {r : Record} {c : Clip} {run : Run}
    (view : s.slotView n = some (h, r, c)) (failed : (s.slots.get n).failed = some run) :
    s.issueDemand n = { s with
      slots := s.slots.set n { s.slots.get n with
        fetchState := .demand, fetch := some ⟨s.nextTag, h, r.clip, run, true, false⟩ }
      nextTag := s.nextTag + 1 } := by
  simp only [State.issueDemand, view, failed]
  rfl

theorem State.stall_priming {s : State} {n : SlotNo} {h : EmitterHandle} {r : Record} {c : Clip}
    (view : s.slotView n = some (h, r, c)) (priming : r.state = .priming) (run : Run) :
    s.stall n r run = { s with
      slots := s.slots.set n { s.slots.get n with
        fetch := some ⟨s.nextTag, h, r.clip, run, true, false⟩, fetchState := .demand, failed := some run }
      nextTag := s.nextTag + 1 } := by
  have stalled : (s.setSlot n { s.slots.get n with fetch := none, fetchState := .stalled, failed := some run }).slots.get n =
      { s.slots.get n with fetch := none, fetchState := .stalled, failed := some run } := Table.get_set_self _ _ _
  have view' : (s.setSlot n { s.slots.get n with fetch := none, fetchState := .stalled, failed := some run }).slotView n =
      some (h, r, c) := (State.slotView_setSlot (by rfl)).trans view
  simp only [State.stall, if_pos priming]
  rw [State.issueDemand_eq view' (by rw [stalled]), stalled]
  simp only [State.setSlot, Table.set_set]

theorem State.countStray_eq {s : State} {tag : Nat} {demand : Bool} {before after : List Fetch} {f : Fetch}
    (stray : s.strayReads = before ++ f :: after) (tags : f.tag = tag) (kinds : f.demand = demand)
    (first : ∀ g ∈ before, g.tag ≠ tag ∨ g.demand ≠ demand) (o : ReadOutcome) :
    s.countStray tag demand o = { s with
      strayReads := before ++ after, inFlight := s.inFlight ++ [.readCount f.clip o] } := by
  have no : ∀ g ∈ before, ¬(g.tag == tag && g.demand == demand) = true := fun g mem is => by
    simp only [Bool.and_eq_true, beq_iff_eq] at is
    obtain tag' | kind := first g mem
    · exact tag' is.1
    · exact kind is.2
  have yes : (f.tag == tag && f.demand == demand) = true := by simp [tags, kinds]
  have found : s.strayRead tag demand = some f := by
    rw [State.strayRead, stray, List.find?_append, List.find?_eq_none.2 no, List.find?_cons, yes]
    rfl
  have notBefore : f ∉ before := fun mem => no f mem yes
  simp only [State.countStray, found, stray, State.post]
  rw [List.erase_append_right _ notBefore, List.erase_cons_head]

theorem State.countStray_none {s : State} {tag : Nat} {demand : Bool}
    (none : ∀ f ∈ s.strayReads, f.tag ≠ tag ∨ f.demand ≠ demand) (o : ReadOutcome) : s.countStray tag demand o = s := by
  have found : s.strayRead tag demand = .none := by
    refine List.find?_eq_none.2 fun f mem is => ?_
    simp only [Bool.and_eq_true, beq_iff_eq] at is
    obtain tag' | kind := none f mem
    · exact tag' is.1
    · exact kind is.2
  simp only [State.countStray, found]

/-- A completion that no slot awaits is that of a released slot's read. -/
theorem exec_readDone_stray {s : State} {n : SlotNo} {tag : Nat} {demand : Bool} {o : ReadOutcome} {e : Instr}
    (which : demand = false ∧ e = .runReadDone n tag o ∨ demand = true ∧ e = .demandReadDone n tag o)
    (other : ∀ f, (s.slots.get n).fetch = some f → f.tag ≠ tag ∨ f.demand ≠ demand) :
    exec e s = .next (s.countStray tag demand o) := by
  have live := State.liveRead_none other
  obtain ⟨rfl, rfl⟩ | ⟨rfl, rfl⟩ := which
  · simp only [exec, execRunReadDone, live]
  · simp only [exec, execDemandReadDone, live]

/-- Settles O37: by whether the read is discarded, by its outcome, and by its kind. -/
theorem clipReadsFillTheWindow : Obligations.ClipReadsFillTheWindow := by
  refine ⟨fun s n f h r c o e x y count recovered slot fetch owner record clip which counted filled => ?_,
    fun s n tag demand o e which other => ⟨fun f before after stray tags kinds first => ?_, fun none => ?_⟩⟩
  · subst slot counted
    have view : s.slotView n = some (h, r, c) := State.slotView_eq owner record clip
    have kind : f.demand = false ∧ e = .runReadDone n f.tag o ∨ f.demand = true ∧ e = .demandReadDone n f.tag o :=
      which.imp (fun h => ⟨h.1, h.2.1⟩) fun h => ⟨h.1, h.2.1⟩
    have step := exec_readDone fetch view kind
    have told : recovered = if f.demand then [.recovered h] else [] := by
      obtain ⟨demand, -, rfl⟩ | ⟨demand, -, rfl⟩ := which
      all_goals rw [demand]; rfl
    have view' : (s.post (.readCount f.clip o)).slotView n = some (h, r, c) := view
    cases discarded : f.discarded with
    | true =>
      rw [discarded, if_pos rfl] at step
      obtain ⟨y', next, gone, run⟩ := State.disregardRead_spec view'
      rw [gone] at step
      refine ⟨_, step, fun m other => Table.get_set_ne _ _ _ _ other, rfl, fun _ => ⟨rfl, ?_⟩, fun no => ?_, fun no => ?_,
        fun no => ?_⟩
      · rw [Table.get_set_self]
        exact run
      all_goals cases no
    | false =>
      rw [discarded, if_neg Bool.false_ne_true] at step
      by_cases bad : o = .uncorrectable
      · rw [if_pos bad] at step
        cases demand : f.demand with
        | true =>
          simp only [State.readFailed, demand, if_true] at step
          refine ⟨_, step, fun m other => Table.get_set_ne _ _ _ _ other, rfl, fun no => ?_, fun _ good => absurd bad good,
            fun _ _ no => ?_, fun _ _ _ => ⟨?_, rfl, Table.get_set_self _ _ _⟩⟩
          · cases no
          · cases no
          · rfl
        | false =>
          simp only [State.readFailed, demand] at step
          by_cases priming : r.state = .priming
          · rw [if_neg Bool.false_ne_true, State.stall_priming view' priming] at step
            refine ⟨_, step, fun m other => Table.get_set_ne _ _ _ _ other, rfl, fun no => ?_, fun _ good => absurd bad good,
              fun _ _ _ => ⟨rfl, fun playing => absurd priming playing, fun _ => ⟨rfl, Table.get_set_self _ _ _⟩⟩,
              fun _ _ no => ?_⟩
            all_goals cases no
          · rw [if_neg Bool.false_ne_true, State.stall_playing _ _ priming] at step
            refine ⟨_, step, fun m other => Table.get_set_ne _ _ _ _ other, rfl, fun no => ?_, fun _ good => absurd bad good,
              fun _ _ _ => ⟨rfl, fun _ => ⟨rfl, Table.get_set_self _ _ _⟩, fun yes => absurd yes priming⟩, fun _ _ no => ?_⟩
            all_goals cases no
      · rw [if_neg bad] at step
        have here : ((s.post (.readCount f.clip o)).readIn n h r c f).slots.get n = y := by
          rw [State.readIn_eq, filled]
          exact Table.get_set_self _ _ _
        have viewIn : ((s.post (.readCount f.clip o)).readIn n h r c f).slotView n = some (h, r, c) := by
          refine (State.slotView_congr ?_ ?_ ?_).trans view
          · rw [here, filled]
          all_goals rw [State.readIn_eq]; rfl
        obtain ⟨z, next, primed, run⟩ := State.primeAndIssue_spec viewIn
        rw [here] at primed run
        rw [primed] at step
        refine ⟨_, step, fun m other => ?_, ?_, fun no => ?_, fun _ _ => ⟨?_, ?_⟩, fun _ no => absurd no bad,
          fun _ no => absurd no bad⟩
        · rw [Table.get_set_ne _ _ _ _ other, State.readIn_eq]
          exact Table.get_set_ne _ _ _ _ other
        · rw [State.readIn_eq]
          rfl
        · cases no
        · rw [State.readIn_eq, told]
          rfl
        · rw [Table.get_set_self]
          rw [State.readIn_eq] at run
          exact run
  · rw [exec_readDone_stray which other, State.countStray_eq stray tags kinds first]
  · rw [exec_readDone_stray which other, State.countStray_none none]

end Sys2Proof.Machine
end

section
/-!
SUPPORT. The output sample of a slot (R32, R34, R78 to R80, R82, R87).
-/

namespace Sys2Proof.Machine

/-! ## The record from which a sample is played (R79, R82) -/

theorem Record.Wraps.wrapTail {old r : Record} {c : Clip} (w : old.Wraps r c) : old.wrapTail c.length = r := by
  obtain ⟨inside, rfl⟩ | ⟨outside, a, b, loop, -, rfl⟩ := w
  · unfold Record.wrapTail
    split
    · rfl
    · exact if_neg (Nat.not_le.2 inside)
  · unfold Record.wrapTail
    rw [loop]
    exact if_pos outside

theorem Record.Wraps.inside {old r : Record} {c : Clip} (w : old.Wraps r c) : r.playPosition < c.length := by
  obtain ⟨inside, rfl⟩ | ⟨-, a, b, -, inside, rfl⟩ := w
  · exact inside
  · exact inside

/-- A LOOP wrap touches only the play position and the pass count. -/
theorem Record.Wraps.keeps {old r : Record} {c : Clip} (w : old.Wraps r c) : r.clip = old.clip ∧ r.state = old.state := by
  obtain ⟨-, rfl⟩ | ⟨-, a, b, -, -, rfl⟩ := w
  · exact ⟨rfl, rfl⟩
  · exact ⟨rfl, rfl⟩

theorem Record.wrapTail_once {r : Record} (once : r.loop = .once) (len : Nat) : r.wrapTail len = r := by
  simp [Record.wrapTail, once]

theorem Record.movePosition_once {r : Record} (once : r.loop = .once) (len : Nat) :
    (r.movePosition len).playPosition = r.playPosition + 1 ∧ (r.movePosition len).passCount = r.passCount := by
  simp [Record.movePosition, once]

theorem Record.movePosition_wraps {r : Record} {a b len : Nat} (loop : r.loop = .loop a b)
    (wraps : r.playPosition + 1 = b ∨ r.playPosition + 1 = len) :
    (r.movePosition len).playPosition = a ∧
      (r.movePosition len).passCount = if r.passCount < 4294967295 then r.passCount + 1 else r.passCount := by
  have wraps : r.playPosition + 1 = b ∨ len ≤ r.playPosition + 1 := wraps.imp_right Eq.ge
  simp only [Record.movePosition, loop, if_pos wraps]
  exact ⟨rfl, rfl⟩

theorem Record.movePosition_within {r : Record} {a b len : Nat} (loop : r.loop = .loop a b) (inside : r.playPosition < len)
    (notB : r.playPosition + 1 ≠ b) (notEnd : r.playPosition + 1 ≠ len) :
    (r.movePosition len).playPosition = r.playPosition + 1 ∧ (r.movePosition len).passCount = r.passCount := by
  have goesOn : ¬(r.playPosition + 1 = b ∨ len ≤ r.playPosition + 1) := by omega
  simp only [Record.movePosition, loop, if_neg goesOn, and_self]

/-- The tail mark that a played sample leaves: at the end of a ONCE clip, the advance count (R80). -/
def Record.tailMark (r : Record) (len : Nat) : Option Nat :=
  if r.loop = .once ∧ len ≤ (r.movePosition len).playPosition then some r.advance else none

theorem Record.tailMark_end {r : Record} {len : Nat} (once : r.loop = .once) (last : r.playPosition + 1 = len) :
    r.tailMark len = some r.advance :=
  if_pos ⟨once, by rw [(Record.movePosition_once once len).1]; omega⟩

theorem Record.tailMark_none {r : Record} {len : Nat} (inside : r.playPosition < len)
    (more : r.loop ≠ .once ∨ r.playPosition + 1 ≠ len) : r.tailMark len = none := by
  refine if_neg fun ⟨once, over_⟩ => ?_
  rw [(Record.movePosition_once once len).1] at over_
  obtain loop | before := more
  · exact loop once
  · omega

/-- The crossing report of a played sample (R64). -/
def Record.crossings (r : Record) (h : EmitterHandle) (now : Int) : List Message :=
  match r.cue with
  | some q => if r.playPosition = q.sample then [.crossing h q.line now] else []
  | none => []

theorem Record.crossings_cue {r : Record} {q : Cue} (cue : r.cue = some q) (here : q.sample = r.playPosition) (h : EmitterHandle)
    (now : Int) : r.crossings h now = [.crossing h q.line now] := by
  simp [Record.crossings, cue, here]

theorem Record.crossings_none {r : Record} (no : ∀ q, r.cue = some q → q.sample ≠ r.playPosition) (h : EmitterHandle) (now : Int) :
    r.crossings h now = [] := by
  unfold Record.crossings
  cases cue : r.cue with
  | none => rfl
  | some q => exact if_neg fun same => no q cue same.symm

/-! ## A clip sample (R78) -/

/-- The record after a played clip sample. -/
def Record.played (r : Record) (c : Clip) : Record :=
  { r with
    advance := r.advance + 1, paths := r.turnPaths c.rate
    playPosition := (r.movePosition c.length).playPosition, passCount := (r.movePosition c.length).passCount }

/-- The slot before its next sample enters the echo line. -/
def StreamSlot.shifted (x : StreamSlot) (r : Record) (c : Clip) (ws : List WindowSample) : StreamSlot :=
  { x with window := ws, tail := r.tailMark c.length, heldTail := none }

/-- The hand-over that the port of the member `h` keeps. -/
theorem PortRec.keepHandOver_delays (a : PortRec) (h : EmitterHandle) (r : Record) (echo : List Sample) :
    a.keepHandOver h (r.handOver echo) = { a with
      members := a.members.map fun m => if m.handle = h then { m with
        handOver := r.paths.map fun x => ⟨echo.getD x.vals.delay ⟨0, 0⟩, x.acc⟩ } else m } :=
  a.keepHandOver_eq h _

/-- The state of a played clip sample before the next run is issued. -/
def State.clipPlayed (s : State) (n : SlotNo) (h : EmitterHandle) (r : Record) (c : Clip) (w : WindowSample)
    (ws : List WindowSample) : State :=
  let u := (s.setSlot n ((s.slots.get n).shifted r c ws)).playSample n h r c.rate w.sample
  { u.putRecord h.slot (r.played c) with inFlight := s.inFlight ++ r.crossings h s.now }

theorem State.playClip_eq {s : State} {n : SlotNo} {h : EmitterHandle} {old r : Record} {c : Clip} {w : WindowSample}
    {ws : List WindowSample} (record : s.recordAt h = some old) :
    s.playClip n h r c w ws = (s.clipPlayed n h r c w ws).issueRun n := by
  have record' : (s.setSlot n ((s.slots.get n).shifted r c ws)).recordAt h = some old := record
  obtain ⟨sampled, -, -, -, -, frame⟩ := State.playSample_spec (n := n) (r := r) c.rate w.sample record'
  unfold State.playClip State.clipPlayed
  have shift : s.setSlot n { s.slots.get n with
      window := ws
      tail := if r.loop = .once ∧ c.length ≤ (r.movePosition c.length).playPosition then some r.advance else none
      heldTail := none } = s.setSlot n ((s.slots.get n).shifted r c ws) := rfl
  simp only [shift]
  generalize (s.setSlot n ((s.slots.get n).shifted r c ws)).playSample n h r c.rate w.sample = u at sampled frame
  have now : (u.modifyRecord h fun k => { k with
      playPosition := (r.movePosition c.length).playPosition, passCount := (r.movePosition c.length).passCount }).now = s.now := by
    rw [State.modifyRecord_frame, frame]
    rfl
  simp only [now]
  have put : (u.modifyRecord h fun k => { k with
      playPosition := (r.movePosition c.length).playPosition, passCount := (r.movePosition c.length).passCount }) =
      u.putRecord h.slot (r.played c) := State.modifyRecord_some sampled
  rw [put]
  have sent : u.inFlight = s.inFlight := by rw [frame]; rfl
  congr 1
  unfold Record.crossings
  cases cue : r.cue with
  | none =>
    simp only [List.append_nil, ← sent]
    rfl
  | some q =>
    simp only [← sent]
    split
    · rfl
    · rw [List.append_nil]
      rfl

/-- What a played clip sample leaves before the next run is issued. -/
theorem State.clipPlayed_spec {s : State} {n : SlotNo} {h : EmitterHandle} {old r : Record} {c : Clip} {w : WindowSample}
    {ws : List WindowSample} (record : s.recordAt h = some old) :
    (s.clipPlayed n h r c w ws).recordAt h = some (r.played c) ∧ s.otherEntries (s.clipPlayed n h r c w ws) h.slot ∧
    (s.clipPlayed n h r c w ws).slots = s.slots.set n { (s.slots.get n).shifted r c ws with
      echo := (w.sample :: (s.slots.get n).echo).take 8192 } ∧
    (∀ p, r.ports.getLsbD p.val = true → (s.clipPlayed n h r c w ws).ports.get p = { s.ports.get p with
      members := (s.ports.get p).members.map fun m => if m.handle = h then { m with handOver := r.paths.map fun x =>
        ⟨((w.sample :: (s.slots.get n).echo).take 8192).getD x.vals.delay ⟨0, 0⟩, x.acc⟩ } else m }) ∧
    (∀ p, r.ports.getLsbD p.val = false → (s.clipPlayed n h r c w ws).ports.get p = s.ports.get p) ∧
    s.clipPlayed n h r c w ws = { s with
      entries := (s.clipPlayed n h r c w ws).entries, slots := (s.clipPlayed n h r c w ws).slots
      ports := (s.clipPlayed n h r c w ws).ports, inFlight := s.inFlight ++ r.crossings h s.now } := by
  have record' : (s.setSlot n ((s.slots.get n).shifted r c ws)).recordAt h = some old := record
  obtain ⟨sampled, others, slots, told, untold, frame⟩ := State.playSample_spec (n := n) (r := r) c.rate w.sample record'
  unfold State.clipPlayed
  generalize (s.setSlot n ((s.slots.get n).shifted r c ws)).playSample n h r c.rate w.sample = u
    at sampled others slots told untold frame
  have here : (s.setSlot n ((s.slots.get n).shifted r c ws)).slots.get n = (s.slots.get n).shifted r c ws :=
    Table.get_set_self _ _ _
  rw [here] at slots told
  refine ⟨State.recordAt_putRecord sampled _, fun k other => ?_, slots.trans (Table.set_set _ _ _ _), fun p bit => ?_, untold, ?_⟩
  · exact (Table.get_set_ne _ _ _ _ other).trans (others k other)
  · exact (told p bit).trans (PortRec.keepHandOver_delays _ _ _ _)
  · rw [frame]
    rfl

/-! ## A sample of silence (R80, R87) -/

/-- What a zero leaves that slot `n` plays. -/
theorem State.playZero_spec {s : State} {n : SlotNo} {h : EmitterHandle} {old r : Record} {c : Clip}
    (record : s.recordAt h = some old) :
    (s.playSample n h r c.rate Sample.zero).recordAt h = some { r with advance := r.advance + 1, paths := r.turnPaths c.rate } ∧
    s.otherEntries (s.playSample n h r c.rate Sample.zero) h.slot ∧
    (s.playSample n h r c.rate Sample.zero).slots = s.slots.set n { s.slots.get n with
      echo := (Sample.zero :: (s.slots.get n).echo).take 8192 } ∧
    (∀ p, r.ports.getLsbD p.val = true → (s.playSample n h r c.rate Sample.zero).ports.get p = { s.ports.get p with
      members := (s.ports.get p).members.map fun m => if m.handle = h then { m with handOver := r.paths.map fun x =>
        ⟨((Sample.zero :: (s.slots.get n).echo).take 8192).getD x.vals.delay ⟨0, 0⟩, x.acc⟩ } else m }) ∧
    (∀ p, r.ports.getLsbD p.val = false → (s.playSample n h r c.rate Sample.zero).ports.get p = s.ports.get p) ∧
    s.playSample n h r c.rate Sample.zero = { s with
      entries := (s.playSample n h r c.rate Sample.zero).entries, slots := (s.playSample n h r c.rate Sample.zero).slots
      ports := (s.playSample n h r c.rate Sample.zero).ports } := by
  obtain ⟨sampled, others, slots, told, untold, frame⟩ := State.playSample_spec (n := n) (r := r) c.rate Sample.zero record
  exact ⟨sampled, others, slots, fun p bit => (told p bit).trans (PortRec.keepHandOver_delays _ _ _ _), untold, frame⟩

section

variable {s : State} {n : SlotNo} {h : EmitterHandle} {old r : Record} {c : Clip} (view : s.slotView n = some (h, old, c))
  (sounds : old.state.sounds = true) (wrap : old.wrapTail c.length = r)

include view sounds wrap

theorem exec_sample_clip {w : WindowSample} {ws : List WindowSample} (tail : (s.slots.get n).tail = none)
    (window : (s.slots.get n).window = w :: ws) : exec (.slotOutputSample n) s = .next (s.playClip n h r c w ws) := by
  simp only [exec, execSlotOutputSample, view, sounds, if_true, wrap, tail, window]

theorem exec_sample_tail {t : Nat} (tail : (s.slots.get n).tail = some t) :
    exec (.slotOutputSample n) s = .next (s.playTail n h r c t) := by
  simp only [exec, execSlotOutputSample, view, sounds, if_true, wrap, tail]

theorem exec_sample_gap (tail : (s.slots.get n).tail = none) (window : (s.slots.get n).window = [])
    (waits : (s.slots.get n).fetchState ≠ .running) : exec (.slotOutputSample n) s = .next (s.playGap n h r c) := by
  simp only [exec, execSlotOutputSample, view, sounds, if_true, wrap, tail, window, if_neg waits]

end

/-- Settles O38: by whether the slot plays a clip sample, a zero of the tail, or a zero of a gap. -/
theorem anOutputSampleIsPlayed : Obligations.AnOutputSampleIsPlayed := by
  refine ⟨fun s n h old r c w ws owner record clip sounds tail window wraps => ?_,
    fun s n h r c owner clip sounds echo turned echoed turn => ⟨fun t record tail once => ?_,
      fun run old record wraps tail window failed waits => ?_⟩⟩
  · have view : s.slotView n = some (h, old, c) := State.slotView_eq owner record clip
    have step := exec_sample_clip view sounds wraps.wrapTail tail window
    rw [State.playClip_eq record] at step
    obtain ⟨played, others, slots, told, untold, frame⟩ := State.clipPlayed_spec (n := n) (r := r) (c := c) (w := w) (ws := ws) record
    have here : (s.clipPlayed n h r c w ws).slots.get n = { (s.slots.get n).shifted r c ws with
        echo := (w.sample :: (s.slots.get n).echo).take 8192 } := by rw [slots, Table.get_set_self]
    have clip' : (s.clipPlayed n h r c w ws).clipAt (r.played c).clip = some c := by
      have clips : (s.clipPlayed n h r c w ws).clips = s.clips := by rw [frame]
      have same : (r.played c).clip = old.clip := wraps.keeps.1
      rw [same, State.clipAt, clips]
      exact clip
    have view' : (s.clipPlayed n h r c w ws).slotView n = some (h, r.played c, c) :=
      State.slotView_eq (by rw [here]; exact owner) played clip'
    obtain ⟨y, next, issued, run⟩ := State.issueRun_spec view'
    have tag : (s.clipPlayed n h r c w ws).nextTag = s.nextTag := by rw [frame]
    rw [here, tag] at run
    rw [issued] at step
    have sent : (s.clipPlayed n h r c w ws).inFlight = s.inFlight ++ r.crossings h s.now := by rw [frame]
    refine ⟨_, _, r.tailMark c.length, step, played, others, ?_, fun m other => ?_, rfl, rfl, Record.movePosition_once (len := _),
      Record.tailMark_end, Record.tailMark_none wraps.inside, fun a b => Record.movePosition_wraps,
      fun a b loop => Record.movePosition_within loop wraps.inside, fun q cue at_ => ?_, fun no => ?_, told, untold, ?_⟩
    · rw [Table.get_set_self]
      exact run
    · rw [Table.get_set_ne _ _ _ _ other, slots, Table.get_set_ne _ _ _ _ other]
    · rw [← Record.crossings_cue cue at_]
      exact sent
    · rw [← List.append_nil s.inFlight, ← Record.crossings_none no h s.now]
      exact sent
    · rw [frame]
  · subst echoed turn
    have view : s.slotView n = some (h, r, c) := State.slotView_eq owner record clip
    have step := exec_sample_tail view sounds (Record.wrapTail_once once c.length) tail
    obtain ⟨played, others, slots, told, untold, frame⟩ := State.playZero_spec (n := n) (r := r) (c := c) record
    unfold State.playTail at step
    generalize s.playSample n h r c.rate Sample.zero = u at step played others slots told untold frame
    have here : u.slots.get n = { s.slots.get n with echo := (Sample.zero :: (s.slots.get n).echo).take 8192 } := by
      rw [slots, Table.get_set_self]
    have sent : u.inFlight = s.inFlight := by rw [frame]
    have elsewhere : ∀ m, m ≠ n → u.slots.get m = s.slots.get m := fun m other => by
      rw [slots, Table.get_set_ne _ _ _ _ other]
    by_cases found : t + r.longestDelay < r.advance ∧ (s.slots.get n).endFound = false
    · have step := step.trans (congrArg _ (if_pos found))
      refine ⟨_, step, played, others, ?_, fun m other => ?_, fun _ _ => ⟨?_, ?_⟩, fun no => ?_, told, untold, ?_⟩
      · simp only [State.post, State.setSlot, Table.get_set_self, here]
      · exact (Table.get_set_ne _ _ _ _ other).trans (elsewhere m other)
      · exact congrArg (· ++ [Message.endOfClip h]) sent
      · simp only [State.post, State.setSlot, Table.get_set_self]
      · obtain early | already := no
        · omega
        · rw [found.2] at already
          cases already
      · rw [frame]
        rfl
    · have step := step.trans (congrArg _ (if_neg found))
      refine ⟨u, step, played, others, ?_, elsewhere, fun late new => absurd ⟨late, new⟩ found, fun _ => ⟨sent, ?_⟩, told, untold, ?_⟩
      · rw [here]
      · rw [here]
      · rw [frame]
  · subst echoed turn
    have kept := wraps.keeps
    have sounds' : old.state.sounds = true := kept.2 ▸ sounds
    have clip' : s.clipAt old.clip = some c := kept.1 ▸ clip
    have view : s.slotView n = some (h, old, c) := State.slotView_eq owner record clip'
    have step := exec_sample_gap view sounds' wraps.wrapTail tail window waits
    unfold State.playGap at step
    by_cases stalled : (s.slots.get n).fetchState = .stalled
    · rw [if_pos stalled, State.issueDemand_eq view failed] at step
      have record' : ({ s with
          slots := s.slots.set n { s.slots.get n with
            fetchState := .demand, fetch := some ⟨s.nextTag, h, old.clip, run, true, false⟩ }
          nextTag := s.nextTag + 1 } : State).recordAt h = some old := record
      obtain ⟨played, others, slots, told, untold, frame⟩ := State.playZero_spec (n := n) (c := c)
        (r := { r with gapSamples := satSucc Config.countMax r.gapSamples }) record'
      rw [Table.get_set_self] at slots told
      refine ⟨_, step, played, others, fun _ => ⟨?_, ?_⟩, fun no => ?_, fun m other => ?_, told, untold, ?_⟩
      · rw [frame]
      · rw [slots, Table.get_set_self, kept.1]
      · rw [stalled] at no
        cases no
      · rw [slots, Table.get_set_ne _ _ _ _ other, Table.get_set_ne _ _ _ _ other]
      · rw [frame]
    · rw [if_neg stalled] at step
      obtain ⟨played, others, slots, told, untold, frame⟩ := State.playZero_spec (n := n) (c := c)
        (r := { r with gapSamples := satSucc Config.countMax r.gapSamples }) record
      refine ⟨_, step, played, others, fun yes => absurd yes stalled, fun _ => ⟨?_, ?_⟩, fun m other => ?_, told, untold, ?_⟩
      · rw [frame]
      · rw [slots, Table.get_set_self]
      · rw [slots, Table.get_set_ne _ _ _ _ other]
      · rw [frame]

end Sys2Proof.Machine
end

section
/-!
SUPPORT. SET_LANE and its parts (R183): the checks on a request in range, and what each owner takes.
-/

namespace Sys2Proof.Machine

/-! ## The checks -/

theorem four_val {b : BitVec 8} {l : Lane} (e : b.toNat = l.val) : four b = some l := by
  simp [four, e]

/-- That a trigger field is in range, and is the setting. -/
def FieldSets (f : TriggerField) (x : TriggerSetting) : Prop :=
  f.trigger.toNat = x.trigger.val ∧ (f.edge = .rising ∧ x.edge = .rising ∨ f.edge = .falling ∧ x.edge = .falling) ∧
    1 ≤ f.qualification ∧ f.qualification ≤ 255 ∧ x.qualification = f.qualification ∧ f.owner.toNat = x.owner.val

theorem FieldSets.triggerSetting {f : TriggerField} {x : TriggerSetting} (sets : FieldSets f x) :
    Machine.triggerSetting f = some x := by
  obtain ⟨trigger, edge, low, high, qualification, owner⟩ := sets
  have named : edgeOf f.edge = some x.edge := by
    obtain ⟨field, setting⟩ | ⟨field, setting⟩ := edge
    · rw [field, setting]
      rfl
    · rw [field, setting]
      rfl
  simp only [Machine.triggerSetting, eight_val trigger, four_val owner, named, low, high, and_self, if_true]
  rw [← qualification]

theorem FieldSets.edge_known {f : TriggerField} {x : TriggerSetting} (sets : FieldSets f x) : f.edge ≠ .unknown := by
  obtain ⟨_, ⟨field, _⟩ | ⟨field, _⟩, _⟩ := sets <;> simp [field]

theorem filterMap_triggerSetting {fs : List TriggerField} {xs : List TriggerSetting}
    (sets : List.Forall₂ FieldSets fs xs) : fs.filterMap triggerSetting = xs := by
  induction sets with
  | nil => rfl
  | cons one _ ih => rw [List.filterMap_cons, one.triggerSetting, ih]

theorem all_fields_good {fs : List TriggerField} {xs : List TriggerSetting} (sets : List.Forall₂ FieldSets fs xs) :
    ∀ f ∈ fs, f.edge ≠ .unknown ∧ (triggerSetting f).isSome = true := by
  induction sets with
  | nil => simp
  | cons one _ ih =>
    intro f mem
    obtain rfl | mem := List.mem_cons.1 mem
    · exact ⟨one.edge_known, by simp [one.triggerSetting]⟩
    · exact ih f mem

/-- The checks of a SET_LANE whose form and ranges are good come down to the acting lane. -/
theorem checkSetLane_inRange {q : SetLaneReq} {target : Lane} {xs : List TriggerSetting}
    (named : q.target.toNat = target.val) (window : ∀ a b, q.window = some (a, b) → target ≠ 0 ∧ a.toNat ≤ b.toNat)
    (interval : ∀ n, q.interval = some n → n ≤ 10000) (sets : List.Forall₂ FieldSets q.triggers xs)
    (apart : (q.triggers.map (·.trigger)).Nodup) (few : q.triggers.length ≤ 8)
    (one : q.window.isSome = true ∨ q.interval.isSome = true ∨ q.triggers ≠ []) (l : Lane) :
    checkSetLane l q = (need (l == 0) .laneDenied).bind fun _ => .ok (laneParts target q xs) := by
  have good := all_fields_good sets
  have form : setLaneForm q = true := by
    have present : (q.window.isSome || q.interval.isSome || !q.triggers.isEmpty) = true := by
      simpa [or_assoc] using one
    simpa [setLaneForm, present, few, apart] using fun f mem => (good f mem).1
  have windowGood : windowInRange target q.window = true := by
    unfold windowInRange
    split
    · next a b given => simpa using window a b given
    · rfl
  have intervalGood : intervalInRange q.interval = true := by
    unfold intervalInRange
    split
    · next n given => simpa using interval n given
    · rfl
  have ranges : (windowInRange target q.window && intervalInRange q.interval &&
      q.triggers.all fun t => (triggerSetting t).isSome) = true := by
    rw [windowGood, intervalGood, Bool.true_and, Bool.true_and, List.all_eq_true]
    exact fun f mem => (good f mem).2
  unfold checkSetLane
  rw [need_ok form, want_some (four_val named), filterMap_triggerSetting sets]
  change (need _ .range).bind _ = _
  rw [need_ok ranges]
  rfl

theorem laneParts_eq (target : Lane) (q : SetLaneReq) (xs : List TriggerSetting) :
    laneParts target q xs =
      (q.window.map fun w => LanePart.window target ⟨w.1, w.2⟩).toList ++
        (q.interval.map fun n => LanePart.interval target n).toList ++ (if xs = [] then [] else [.triggers xs]) := by
  simp [laneParts]

/-! ## A trigger setting -/

/-- The trigger of a setting whose candidate has run out neither under the old time nor under the new one takes the setting and
nothing else. -/
theorem setting_unsettled {s : State} {x : TriggerSetting} {r : TriggerRec} (is : r = s.triggers.get x.trigger)
    (left : s.phase ≠ .ready ∨ r.line = r.settled ∨
      ∀ c, r.candidate = some c → s.now < c + 10 * r.qualification ∧ s.now < c + 10 * x.qualification) :
    settingRecord s x = { r with edge := x.edge, qualification := x.qualification, owner := x.owner } ∧
      settingEdges s x = [] := by
  subst is
  by_cases ready : s.phase = .ready
  · have still : ∀ e n o, (n = (s.triggers.get x.trigger).qualification ∨ n = x.qualification) →
        ({ s.triggers.get x.trigger with edge := e, qualification := n, owner := o } : TriggerRec).runOut s.now = false := by
      intro e n o which
      cases candidate : (s.triggers.get x.trigger).candidate with
      | none => simp [TriggerRec.runOut, candidate]
      | some c =>
        refine Bool.eq_false_iff.2 fun out => ?_
        obtain ⟨held, moved⟩ := (TriggerRec.runOut_some (r := { s.triggers.get x.trigger with
          edge := e, qualification := n, owner := o }) (c := c) candidate s.now).1 out
        obtain away | settled | early := left
        · exact away ready
        · exact moved settled
        · obtain ⟨old, new⟩ := early c candidate
          obtain rfl | rfl := which
          · exact absurd held (by simpa using old)
          · exact absurd held (by simpa using new)
    have old : (s.triggers.get x.trigger).runOut s.now = false := still _ _ _ (.inl rfl)
    have new := still x.edge x.qualification x.owner (.inr rfl)
    simp [settingRecord, settingEdges, old, new]
  · simp [settingRecord, settingEdges, ready]

/-- A candidate that has been held for the old time settles under the old setting, at its own time. -/
theorem setting_settles_old {s : State} {x : TriggerSetting} {r : TriggerRec} {c : Int} (is : r = s.triggers.get x.trigger)
    (ready : s.phase = .ready) (moved : r.line ≠ r.settled) (candidate : r.candidate = some c)
    (held : c + 10 * r.qualification ≤ s.now) :
    settingRecord s x = { r with
        edge := x.edge, qualification := x.qualification, owner := x.owner, settled := r.line, candidate := none } ∧
      settingEdges s x = if r.line = decide (r.edge = .rising) then [.edge x.trigger (c + 10 * r.qualification)] else [] := by
  subst is
  have old := (TriggerRec.runOut_some candidate s.now).2 ⟨held, moved⟩
  simp only [settingRecord, settingEdges, old, ready, TriggerRec.completesAt, candidate, Option.getD_some, Edge.level_eq]
  exact ⟨rfl, rfl⟩

/-- A candidate that has been held for the new time only settles under the new setting, now. -/
theorem setting_settles_new {s : State} {x : TriggerSetting} {r : TriggerRec} {c : Int} (is : r = s.triggers.get x.trigger)
    (ready : s.phase = .ready) (moved : r.line ≠ r.settled) (candidate : r.candidate = some c)
    (early : s.now < c + 10 * r.qualification) (held : c + 10 * x.qualification ≤ s.now) :
    settingRecord s x = { r with
        edge := x.edge, qualification := x.qualification, owner := x.owner, settled := r.line, candidate := none } ∧
      settingEdges s x = if r.line = decide (x.edge = .rising) then [.edge x.trigger s.now] else [] := by
  subst is
  have old : (s.triggers.get x.trigger).runOut s.now = false := by
    refine Bool.eq_false_iff.2 fun out => ?_
    have late := ((TriggerRec.runOut_some candidate _).1 out).1
    omega
  have new : ({ s.triggers.get x.trigger with edge := x.edge, qualification := x.qualification, owner := x.owner } :
      TriggerRec).runOut s.now = true :=
    (TriggerRec.runOut_some (r := { s.triggers.get x.trigger with
      edge := x.edge, qualification := x.qualification, owner := x.owner }) (c := c) candidate s.now).2 ⟨held, moved⟩
  simp only [settingRecord, settingEdges, old, new, ready, Edge.level_eq]
  exact ⟨rfl, rfl⟩

/-! ## The parts -/

theorem exec_setLanePart {s : State} {l : Lane} {part : LanePart} {rest : List LanePart}
    (walks : s.walk = some (.setLane l (part :: rest))) :
    exec .setLanePart s = .next ((s.takePart part).afterPart l rest) := by
  dsimp only [exec, execSetLanePart]
  rw [walks]

theorem State.afterPart_last (s : State) (l : Lane) :
    s.afterPart l [] = { s with walk := none }.answer l ⟨.done, .empty⟩ := rfl

theorem State.afterPart_more (s : State) (l : Lane) {rest : List LanePart} (more : rest ≠ []) :
    s.afterPart l rest = { s with walk := some (.setLane l rest) } := by
  cases rest with
  | nil => exact absurd rfl more
  | cons => rfl

/-- Settles O52: SET_LANE by the checks on a request in range; SET_LANE_PART by what each kind of part sets, the trigger settings
by whether the candidate has been held for the old time, for the new one, or for neither. -/
theorem setLaneHandsItsPartsOn : Obligations.SetLaneHandsItsPartsOn := by
  intro s l
  refine ⟨?_, ?_⟩
  · intro q target xs parts handed named window interval sets apart few one given
    have checks := checkSetLane_inRange named window interval sets apart few one l
    refine ⟨fun other => exec_setLane_refused handed (checks.trans ?_), fun first => ?_⟩
    · rw [need_error (by simpa using other)]
      rfl
    · rw [given, ← laneParts_eq]
      refine exec_setLane_accepted handed (checks.trans ?_)
      rw [need_ok (by simpa using first)]
      rfl
  · intro part rest walks
    refine ⟨s.takePart part, ?_, ?_, ?_, ?_, ?_⟩
    · rintro rfl
      exact exec_setLanePart walks
    · intro more
      rw [exec_setLanePart walks, State.afterPart_more _ _ more]
    · rintro target w rfl
      refine ⟨by simp [State.takePart], fun k other => ?_, rfl⟩
      exact Table.get_set_ne _ _ _ _ other
    · rintro target ms rfl
      exact ⟨Table.get_set_self .., fun k other => Table.get_set_ne _ _ _ _ other, rfl⟩
    · rintro xs rfl apart
      obtain ⟨taken, kept, edges, frame⟩ := State.foldl_setTriggerSetting xs apart s
      refine ⟨settingEdges s, ?_, kept, edges, frame⟩
      rintro x mem r is
      refine ⟨(settingRecord s x).settled, (settingRecord s x).candidate, ?_, ?_, ?_, ?_⟩
      · refine (taken x mem).trans ?_
        subst is
        unfold settingRecord
        extract_lets r q
        split <;> rfl
      · intro left
        obtain ⟨record, none⟩ := setting_unsettled is left
        exact ⟨by rw [record], by rw [record], none⟩
      · intro c ready moved candidate held
        obtain ⟨record, edge⟩ := setting_settles_old is ready moved candidate held
        exact ⟨by rw [record], by rw [record], edge⟩
      · intro c ready moved candidate early held
        obtain ⟨record, edge⟩ := setting_settles_new is ready moved candidate early held
        exact ⟨by rw [record], by rw [record], edge⟩

end Sys2Proof.Machine
end

section
/-!
SUPPORT. The bench profile (R188 to R190): its entries, its sections, and the reads that bring it.
-/

namespace Sys2Proof.Machine

/-! ## Entries -/

theorem below_eq_some {n x : Nat} {i : Fin n} : below n x = some i ↔ x = i.val := by
  unfold below
  split
  · rw [Option.some.injEq, Fin.ext_iff]
  · next high => exact ⟨nofun, fun e => absurd (e ▸ i.isLt) high⟩

theorem profileClock_eq_some {kind value rate : Nat} {c : Clock} :
    profileClock kind value rate = some c ↔
      (kind = 0 ∧ value ∈ [1, 2, 4, 8, 16] ∧ rate = 0 ∧ c = .synth value ∨
        kind = 1 ∧ rate = 0 ∧ (∃ k : Port, k.val = value ∧ c = .follow k) ∨
        kind = 2 ∧ value = 0 ∧ 1000000 ≤ rate ∧ rate ≤ 80000000 ∧ c = .external rate) := by
  unfold profileClock
  split
  · simp [and_assoc, eq_comm]
  · by_cases zero : rate = 0
    · simp only [zero, if_true, Option.map_eq_some_iff, below_eq_some]
      simp [eq_comm]
    · simp [zero]
  · simp [and_assoc, eq_comm]
  · next not0 not1 not2 => exact ⟨nofun, by rintro (⟨e, -⟩ | ⟨e, -⟩ | ⟨e, -⟩) <;> contradiction⟩

theorem portSetting_eq_some {e : List Byte} {x : PortSetting} : portSetting e = some x ↔
    byteAt e 0 = x.port.val ∧ byteAt e 3 = x.owner.val ∧ fieldAt e 4 2 = x.budget ∧
      256 ≤ x.budget ∧ x.budget ≤ 8192 ∧ fieldAt e 6 2 = 0 ∧
      profileClock (byteAt e 1) (byteAt e 2) (fieldAt e 8 4) = some x.clock := by
  obtain ⟨port, clock, owner, budget⟩ := x
  simp only [portSetting, Option.bind_eq_bind, Option.bind_eq_some_iff, below_eq_some, Option.ite_none_right_eq_some,
    Option.some.injEq, PortSetting.mk.injEq]
  constructor
  · rintro ⟨_, named, _, clocked, _, owned, ⟨low, high, zero⟩, rfl, rfl, rfl, rfl⟩
    exact ⟨named, owned, rfl, low, high, zero, clocked⟩
  · rintro ⟨named, owned, rfl, low, high, zero, clocked⟩
    exact ⟨_, named, _, clocked, _, owned, ⟨low, high, zero⟩, rfl, rfl, rfl, rfl⟩

theorem profileEdge_eq_some {n : Nat} {x : Edge} :
    profileEdge n = some x ↔ n = 0 ∧ x = .rising ∨ n = 1 ∧ x = .falling := by
  unfold profileEdge
  split
  · simp [eq_comm]
  · simp [eq_comm]
  · next not0 not1 => exact ⟨nofun, by rintro (⟨e, -⟩ | ⟨e, -⟩) <;> contradiction⟩

theorem profileTrigger_eq_some {e : List Byte} {x : TriggerSetting} : profileTrigger e = some x ↔
    byteAt e 0 = x.trigger.val ∧ byteAt e 3 = x.owner.val ∧ byteAt e 2 = x.qualification ∧ 1 ≤ x.qualification ∧
      (byteAt e 1 = 0 ∧ x.edge = .rising ∨ byteAt e 1 = 1 ∧ x.edge = .falling) := by
  obtain ⟨trigger, edge, qualification, owner⟩ := x
  simp only [profileTrigger, Option.bind_eq_bind, Option.bind_eq_some_iff, below_eq_some, Option.ite_none_right_eq_some,
    Option.some.injEq, TriggerSetting.mk.injEq, profileEdge_eq_some]
  constructor
  · rintro ⟨_, named, _, edge, _, owned, low, rfl, rfl, rfl, rfl⟩
    exact ⟨named, owned, rfl, low, edge⟩
  · rintro ⟨named, owned, rfl, low, edge⟩
    exact ⟨_, named, _, edge, _, owned, low, rfl, rfl, rfl, rfl⟩

theorem profileWindow_eq_some {l : Lane} {flag base limit : Nat} {w : Option HostWindow} :
    profileWindow l flag base limit = some w ↔
      (flag = 0 ∧ base = 0 ∧ limit = 0 ∧ w = (if l = 0 then none else some .unrestricted) ∨
        flag = 1 ∧ l ≠ 0 ∧ base ≤ limit ∧ w = some ⟨BitVec.ofNat 64 base, BitVec.ofNat 64 limit⟩) := by
  unfold profileWindow
  split
  · simp [and_assoc, eq_comm]
  · simp [and_assoc, eq_comm]
  · next not0 not1 => exact ⟨nofun, by rintro (⟨e, -⟩ | ⟨e, -⟩) <;> contradiction⟩

theorem laneSetting_eq_some {e : List Byte} {x : LaneSetting} : laneSetting e = some x ↔
    byteAt e 0 = x.lane.val ∧ fieldAt e 2 2 = x.interval ∧ x.interval ≤ 10000 ∧ fieldAt e 4 4 = 0 ∧
      profileWindow x.lane (byteAt e 1) (fieldAt e 8 8) (fieldAt e 16 8) = some x.window := by
  obtain ⟨lane, window, interval⟩ := x
  simp only [laneSetting, Option.bind_eq_bind, Option.bind_eq_some_iff, below_eq_some, Option.ite_none_right_eq_some,
    Option.some.injEq, LaneSetting.mk.injEq]
  constructor
  · rintro ⟨_, named, _, window, ⟨low, zero⟩, rfl, rfl, rfl⟩
    exact ⟨named, rfl, low, zero, window⟩
  · rintro ⟨named, rfl, low, zero, window⟩
    exact ⟨_, named, _, window, ⟨low, zero⟩, rfl, rfl, rfl⟩

theorem profileGood_iff (bytes : List Byte) :
    profileGood bytes = true ↔ 16 ≤ bytes.length ∧ 16 ≤ fieldAt bytes 0 2 ∧ fieldAt bytes 0 2 ≤ 4096 ∧
      fieldAt bytes 0 2 ≤ bytes.length ∧ fieldAt bytes 2 2 = 1 ∧
      (crc32 ((bytes.take (fieldAt bytes 0 2)).drop 8)).toNat = fieldAt bytes 4 4 ∧ fieldAt bytes 10 6 = 0 := by
  simp only [profileGood, Bool.and_eq_true, decide_eq_true_eq, beq_iff_eq, and_assoc]

/-! ## The settings of a body -/

/-- A body's entries all read well exactly when each reading is that of the bytes in its place. -/
theorem mapM_entriesOf {α : Type} {size : Nat} {read : List Byte → Option α} {xs : List α} {n : Nat} {body : List Byte} :
    (entriesOf size n body).mapM read = some xs ↔
      xs.length = n ∧ ∀ i x, xs[i]? = some x → read ((body.drop (size * i)).take size) = some x := by
  induction n generalizing body xs with
  | zero =>
    rw [entriesOf, List.mapM_nil, List.length_eq_zero_iff]
    constructor
    · rintro ⟨⟩
      exact ⟨rfl, by simp⟩
    · rintro ⟨rfl, -⟩
      rfl
  | succ n ih =>
    simp only [entriesOf, List.mapM_cons, Option.bind_eq_bind, Option.bind_eq_some_iff, ih]
    constructor
    · rintro ⟨y, first, ys, ⟨long, others⟩, ⟨⟩⟩
      refine ⟨by simp [long], fun i x given => ?_⟩
      cases i with
      | zero =>
        cases given
        exact first
      | succ i =>
        rw [Nat.mul_succ, Nat.add_comm, ← List.drop_drop]
        exact others i x given
    · rintro ⟨long, each⟩
      cases xs with
      | nil => simp at long
      | cons y ys =>
        refine ⟨y, each 0 y rfl, ys, ⟨by simpa using long, fun i x given => ?_⟩, rfl⟩
        have here := each (i + 1) x given
        rwa [Nat.mul_succ, Nat.add_comm, ← List.drop_drop] at here

theorem settingsOf_eq_some {α β : Type} {size : Nat} {read : List Byte → Option α} {name : α → Nat} {key : α → β}
    {body : List Byte} {xs : List α} (sized : 0 < size) (same : ∀ x y, name x = name y ↔ key x = key y) :
    settingsOf size read name body = some xs ↔
      xs ≠ [] ∧ body.length = size * xs.length ∧ (xs.map key).Nodup ∧
        ∀ i x, xs[i]? = some x → read ((body.drop (size * i)).take size) = some x := by
  have apart : ∀ ys : List α, (ys.map name).Nodup ↔ (ys.map key).Nodup := by
    intro ys
    rw [List.Nodup, List.Nodup, List.pairwise_map, List.pairwise_map]
    simp only [ne_eq, same]
  have taken : settingsOf size read name body = some xs ↔
      ¬ (body.length = 0 ∨ body.length % size ≠ 0) ∧ (entriesOf size (body.length / size) body).mapM read = some xs ∧
        (xs.map name).Nodup := by
    unfold settingsOf
    split
    · next bad => exact ⟨nofun, fun good => absurd bad good.1⟩
    · next good =>
      rw [and_iff_right good]
      split
      · next ys some =>
        rw [some, Option.some.injEq, Option.ite_none_right_eq_some, Option.some.injEq]
        constructor
        · rintro ⟨nodup, rfl⟩
          exact ⟨rfl, nodup⟩
        · rintro ⟨rfl, nodup⟩
          exact ⟨nodup, rfl⟩
      · next none => simp [none]
  rw [taken, mapM_entriesOf, apart, not_or, not_not]
  constructor
  · rintro ⟨⟨filled, whole⟩, ⟨long, each⟩, nodup⟩
    have length : body.length = size * xs.length := by
      rw [long, Nat.mul_div_cancel' (Nat.dvd_of_mod_eq_zero whole)]
    refine ⟨?_, length, nodup, each⟩
    rintro rfl
    exact filled length
  · rintro ⟨filled, length, nodup, each⟩
    have some : 0 < xs.length := List.length_pos_iff.2 filled
    refine ⟨⟨?_, by simp [length]⟩, ⟨?_, each⟩, nodup⟩
    · rw [length]
      exact (Nat.mul_pos sized some).ne'
    · rw [length, Nat.mul_div_cancel_left _ sized]

end Sys2Proof.Machine

namespace Sys2Proof

/-! ## Settings taken in turn -/

/-- Records that are set in turn, each named once: what the table then holds. -/
theorem Table.eq_foldl_set_iff {α β : Type} {n : Nat} (key : β → Fin n) (f : β → α → α) {xs : List β}
    (nodup : (xs.map key).Nodup) (t u : Table α n) :
    u = xs.foldl (fun t x => t.set (key x) (f x (t.get (key x)))) t ↔
      (∀ x ∈ xs, u.get (key x) = f x (t.get (key x))) ∧ ∀ k, k ∉ xs.map key → u.get k = t.get k := by
  have get : (∀ x ∈ xs, (xs.foldl (fun t x => t.set (key x) (f x (t.get (key x)))) t).get (key x) = f x (t.get (key x))) ∧
      ∀ k, k ∉ xs.map key → (xs.foldl (fun t x => t.set (key x) (f x (t.get (key x)))) t).get k = t.get k := by
    induction xs generalizing t with
    | nil => simp
    | cons y ys ih =>
      obtain ⟨new, nodup⟩ := List.nodup_cons.1 nodup
      obtain ⟨named, others⟩ := ih nodup (t.set (key y) (f y (t.get (key y))))
      refine ⟨fun x mem => ?_, fun k out => ?_⟩
      · obtain rfl | mem := List.mem_cons.1 mem
        · rw [List.foldl_cons, others _ new, Table.get_set_self]
        · have other : key x ≠ key y := fun e => new (e ▸ List.mem_map_of_mem mem)
          rw [List.foldl_cons, named x mem, Table.get_set_ne _ _ _ _ other]
      · obtain ⟨other, out⟩ := not_or.1 (mt List.mem_cons.2 out)
        rw [List.foldl_cons, others k out, Table.get_set_ne _ _ _ _ other]
  constructor
  · rintro rfl
    exact get
  · rintro ⟨named, others⟩
    refine Table.ext_get _ _ fun k => ?_
    by_cases out : k ∉ xs.map key
    · rw [others k out, get.2 k out]
    · obtain ⟨x, mem, rfl⟩ := List.mem_map.1 (not_not.1 out)
      rw [named x mem, get.1 x mem]

end Sys2Proof

namespace Sys2Proof.Machine

theorem State.foldl_profilePort (xs : List PortSetting) (s : State) :
    xs.foldl State.profilePort s = { s with ports := xs.foldl (fun t x => t.set x.port
      { t.get x.port with clock := x.clock, owner := x.owner, budget := x.budget }) s.ports } := by
  induction xs generalizing s with
  | nil => rfl
  | cons x xs ih =>
    rw [List.foldl_cons, ih]
    rfl

theorem State.foldl_profileTriggerSet (xs : List TriggerSetting) (s : State) :
    xs.foldl State.profileTriggerSet s = { s with triggers := xs.foldl (fun t x => t.set x.trigger
      { t.get x.trigger with edge := x.edge, qualification := x.qualification, owner := x.owner }) s.triggers } := by
  induction xs generalizing s with
  | nil => rfl
  | cons x xs ih =>
    rw [List.foldl_cons, ih]
    rfl

theorem State.foldl_profileLane (xs : List LaneSetting) (s : State) :
    xs.foldl State.profileLane s = { s with
      units := xs.foldl (fun t x => t.set x.lane { t.get x.lane with window := x.window }) s.units
      spentIntervals := xs.foldl (fun t x => t.set x.lane x.interval) s.spentIntervals } := by
  induction xs generalizing s with
  | nil => rfl
  | cons x xs ih =>
    rw [List.foldl_cons, ih]
    rfl

theorem eq_foldl_profilePort_iff {xs : List PortSetting} (nodup : (xs.map (·.port)).Nodup) (s t : State) :
    t = xs.foldl State.profilePort s ↔
      (∀ x ∈ xs, t.ports.get x.port = { s.ports.get x.port with clock := x.clock, owner := x.owner, budget := x.budget }) ∧
        (∀ p, p ∉ xs.map (·.port) → t.ports.get p = s.ports.get p) ∧ t = { s with ports := t.ports } := by
  have table := Table.eq_foldl_set_iff (·.port)
    (fun (x : PortSetting) (r : PortRec) => { r with clock := x.clock, owner := x.owner, budget := x.budget }) nodup s.ports
    t.ports
  rw [State.foldl_profilePort, ← and_assoc, ← table]
  constructor
  · rintro rfl
    exact ⟨rfl, rfl⟩
  · rintro ⟨ports, frame⟩
    rw [frame, ports]

theorem eq_foldl_profileTriggerSet_iff {xs : List TriggerSetting} (nodup : (xs.map (·.trigger)).Nodup) (s t : State) :
    t = xs.foldl State.profileTriggerSet s ↔
      (∀ x ∈ xs, t.triggers.get x.trigger = { s.triggers.get x.trigger with
        edge := x.edge, qualification := x.qualification, owner := x.owner }) ∧
        (∀ k, k ∉ xs.map (·.trigger) → t.triggers.get k = s.triggers.get k) ∧ t = { s with triggers := t.triggers } := by
  have table := Table.eq_foldl_set_iff (·.trigger) (fun (x : TriggerSetting) (r : TriggerRec) =>
    { r with edge := x.edge, qualification := x.qualification, owner := x.owner }) nodup s.triggers t.triggers
  rw [State.foldl_profileTriggerSet, ← and_assoc, ← table]
  constructor
  · rintro rfl
    exact ⟨rfl, rfl⟩
  · rintro ⟨triggers, frame⟩
    rw [frame, triggers]

theorem eq_foldl_profileLane_iff {xs : List LaneSetting} (nodup : (xs.map (·.lane)).Nodup) (s t : State) :
    t = xs.foldl State.profileLane s ↔
      (∀ x ∈ xs, t.units.get x.lane = { s.units.get x.lane with window := x.window } ∧
        t.spentIntervals.get x.lane = x.interval) ∧
        (∀ k, k ∉ xs.map (·.lane) → t.units.get k = s.units.get k ∧ t.spentIntervals.get k = s.spentIntervals.get k) ∧
        t = { s with units := t.units, spentIntervals := t.spentIntervals } := by
  have units := Table.eq_foldl_set_iff (·.lane)
    (fun (x : LaneSetting) (u : RequestUnit) => { u with window := x.window }) nodup s.units t.units
  have intervals := Table.eq_foldl_set_iff (·.lane) (fun (x : LaneSetting) (_ : Nat) => x.interval) nodup s.spentIntervals
    t.spentIntervals
  rw [State.foldl_profileLane]
  constructor
  · intro e
    obtain ⟨unitsNamed, unitsOther⟩ := units.1 (congrArg State.units e)
    obtain ⟨intervalsNamed, intervalsOther⟩ := intervals.1 (congrArg State.spentIntervals e)
    refine ⟨fun x mem => ⟨unitsNamed x mem, intervalsNamed x mem⟩, fun k out => ⟨unitsOther k out, intervalsOther k out⟩, ?_⟩
    rw [e]
  · rintro ⟨named, others, frame⟩
    rw [frame, units.2 ⟨fun x mem => (named x mem).1, fun k out => (others k out).1⟩,
      intervals.2 ⟨fun x mem => (named x mem).2, fun k out => (others k out).2⟩]

/-! ## Sections -/

theorem portsSection_eq_some {s t : State} {xs : List PortSetting} :
    s.portsSection xs = some t ↔ t = xs.foldl State.profilePort s ∧ t.followSound := by
  unfold State.portsSection
  extract_lets u
  rw [Option.ite_none_right_eq_some, State.followsWell_iff, Option.some.injEq]
  constructor
  · rintro ⟨sound, rfl⟩
    exact ⟨rfl, sound⟩
  · rintro ⟨rfl, sound⟩
    exact ⟨sound, rfl⟩

/-- What a section that is applied sets, by its kind. -/
theorem applySection_eq_some {s t : State} {kind spare : Nat} {body : List Byte} :
    s.applySection kind spare body = some t ↔ spare = 0 ∧
      ((kind = 1 ∧ ∃ xs, settingsOf 12 portSetting (fun x => x.port.val) body = some xs ∧
          t = xs.foldl State.profilePort s ∧ t.followSound) ∨
        (kind = 2 ∧ ∃ xs, settingsOf 4 profileTrigger (fun x => x.trigger.val) body = some xs ∧
          t = xs.foldl State.profileTriggerSet s) ∨
        (kind = 3 ∧ ∃ xs, settingsOf 24 laneSetting (fun x => x.lane.val) body = some xs ∧
          t = xs.foldl State.profileLane s)) := by
  unfold State.applySection
  by_cases zero : spare = 0
  · rw [if_neg (not_not.2 zero), and_iff_right zero]
    split
    · simp [Option.bind_eq_some_iff, portsSection_eq_some]
    · simp [eq_comm]
    · simp [eq_comm]
    · next not1 not2 not3 => exact ⟨nofun, by rintro (⟨e, -⟩ | ⟨e, -⟩ | ⟨e, -⟩) <;> contradiction⟩
  · simp [zero]

/-- What a section is taken for (R189). -/
theorem applySection_iff (s t : State) (kind spare : Nat) (body : List Byte) :
    s.applySection kind spare body = some t ↔ spare = 0 ∧
     ((kind = 1 ∧ ∃ xs : List PortSetting, xs ≠ [] ∧ body.length = 12 * xs.length ∧ (xs.map (·.port)).Nodup ∧
         (∀ i x, xs[i]? = some x → portSetting ((body.drop (12 * i)).take 12) = some x) ∧
         (∀ x ∈ xs, t.ports.get x.port = { s.ports.get x.port with clock := x.clock, owner := x.owner, budget := x.budget }) ∧
         (∀ p, p ∉ xs.map (·.port) → t.ports.get p = s.ports.get p) ∧ t.followSound ∧ t = { s with ports := t.ports }) ∨
      (kind = 2 ∧ ∃ xs : List TriggerSetting, xs ≠ [] ∧ body.length = 4 * xs.length ∧ (xs.map (·.trigger)).Nodup ∧
         (∀ i x, xs[i]? = some x → profileTrigger ((body.drop (4 * i)).take 4) = some x) ∧
         (∀ x ∈ xs, t.triggers.get x.trigger = { s.triggers.get x.trigger with
           edge := x.edge, qualification := x.qualification, owner := x.owner }) ∧
         (∀ k, k ∉ xs.map (·.trigger) → t.triggers.get k = s.triggers.get k) ∧ t = { s with triggers := t.triggers }) ∨
      (kind = 3 ∧ ∃ xs : List LaneSetting, xs ≠ [] ∧ body.length = 24 * xs.length ∧ (xs.map (·.lane)).Nodup ∧
         (∀ i x, xs[i]? = some x → laneSetting ((body.drop (24 * i)).take 24) = some x) ∧
         (∀ x ∈ xs, t.units.get x.lane = { s.units.get x.lane with window := x.window } ∧
           t.spentIntervals.get x.lane = x.interval) ∧
         (∀ k, k ∉ xs.map (·.lane) → t.units.get k = s.units.get k ∧ t.spentIntervals.get k = s.spentIntervals.get k) ∧
         t = { s with units := t.units, spentIntervals := t.spentIntervals })) := by
  have ports := fun xs => settingsOf_eq_some (size := 12) (read := portSetting) (name := fun x => x.port.val) (key := (·.port))
    (body := body) (xs := xs) (by decide) fun _ _ => Fin.ext_iff.symm
  have triggers := fun xs => settingsOf_eq_some (size := 4) (read := profileTrigger) (name := fun x => x.trigger.val)
    (key := (·.trigger)) (body := body) (xs := xs) (by decide) fun _ _ => Fin.ext_iff.symm
  have lanes := fun xs => settingsOf_eq_some (size := 24) (read := laneSetting) (name := fun x => x.lane.val) (key := (·.lane))
    (body := body) (xs := xs) (by decide) fun _ _ => Fin.ext_iff.symm
  rw [applySection_eq_some]
  simp only [ports, triggers, lanes]
  refine and_congr_right fun _ => or_congr ?_ (or_congr ?_ ?_)
  · refine and_congr_right fun _ => exists_congr fun xs => ?_
    constructor
    · rintro ⟨⟨filled, long, nodup, each⟩, set, sound⟩
      obtain ⟨named, others, frame⟩ := (eq_foldl_profilePort_iff nodup s t).1 set
      exact ⟨filled, long, nodup, each, named, others, sound, frame⟩
    · rintro ⟨filled, long, nodup, each, named, others, sound, frame⟩
      exact ⟨⟨filled, long, nodup, each⟩, (eq_foldl_profilePort_iff nodup s t).2 ⟨named, others, frame⟩, sound⟩
  · refine and_congr_right fun _ => exists_congr fun xs => ?_
    constructor
    · rintro ⟨⟨filled, long, nodup, each⟩, set⟩
      exact ⟨filled, long, nodup, each, (eq_foldl_profileTriggerSet_iff nodup s t).1 set⟩
    · rintro ⟨filled, long, nodup, each, set⟩
      exact ⟨⟨filled, long, nodup, each⟩, (eq_foldl_profileTriggerSet_iff nodup s t).2 set⟩
  · refine and_congr_right fun _ => exists_congr fun xs => ?_
    constructor
    · rintro ⟨⟨filled, long, nodup, each⟩, set⟩
      exact ⟨filled, long, nodup, each, (eq_foldl_profileLane_iff nodup s t).1 set⟩
    · rintro ⟨filled, long, nodup, each, set⟩
      exact ⟨⟨filled, long, nodup, each⟩, (eq_foldl_profileLane_iff nodup s t).2 set⟩

/-- That nothing but settings of ports, triggers and lanes has changed, and the mark of a skipped section. -/
structure State.SettingsTaken (s t : State) : Prop where
  ports : ∀ p, t.ports.get p = { s.ports.get p with
    clock := (t.ports.get p).clock, owner := (t.ports.get p).owner, budget := (t.ports.get p).budget }
  triggers : ∀ k, t.triggers.get k = { s.triggers.get k with
    edge := (t.triggers.get k).edge, qualification := (t.triggers.get k).qualification
    owner := (t.triggers.get k).owner }
  units : ∀ k, t.units.get k = { s.units.get k with window := (t.units.get k).window }
  frame : t = { s with
    profilePartial := t.profilePartial, units := t.units, spentIntervals := t.spentIntervals, ports := t.ports
    triggers := t.triggers }

namespace State.SettingsTaken

theorem refl (s : State) : s.SettingsTaken s := ⟨fun _ => rfl, fun _ => rfl, fun _ => rfl, rfl⟩

theorem trans {s t u : State} (a : s.SettingsTaken t) (b : t.SettingsTaken u) : s.SettingsTaken u where
  ports p := by rw [b.ports, a.ports]
  triggers k := by rw [b.triggers, a.triggers]
  units k := by rw [b.units, a.units]
  frame := by rw [b.frame, a.frame]

theorem foldl {α : Type} {f : State → α → State} (one : ∀ (s : State) x, s.SettingsTaken (f s x)) (xs : List α) (s : State) :
    s.SettingsTaken (xs.foldl f s) := by
  induction xs generalizing s with
  | nil => exact refl s
  | cons x xs ih => exact (one s x).trans (ih _)

theorem skipSection (s : State) : s.SettingsTaken s.skipSection := ⟨fun _ => rfl, fun _ => rfl, fun _ => rfl, rfl⟩

theorem profilePort (s : State) (x : PortSetting) : s.SettingsTaken (s.profilePort x) where
  ports p := by
    by_cases here : p = x.port
    · subst here
      simp [State.profilePort, State.modifyPort, State.setPort]
    · have other : (s.profilePort x).ports.get p = s.ports.get p := Table.get_set_ne _ _ _ _ here
      rw [other]
  triggers _ := rfl
  units _ := rfl
  frame := rfl

theorem profileTriggerSet (s : State) (x : TriggerSetting) : s.SettingsTaken (s.profileTriggerSet x) where
  ports _ := rfl
  triggers k := by
    by_cases here : k = x.trigger
    · subst here
      simp [State.profileTriggerSet, State.setTrigger]
    · have other : (s.profileTriggerSet x).triggers.get k = s.triggers.get k := Table.get_set_ne _ _ _ _ here
      rw [other]
  units _ := rfl
  frame := rfl

theorem profileLane (s : State) (x : LaneSetting) : s.SettingsTaken (s.profileLane x) where
  ports _ := rfl
  triggers _ := rfl
  units k := by
    by_cases here : k = x.lane
    · subst here
      simp [State.profileLane]
    · have other : (s.profileLane x).units.get k = s.units.get k := Table.get_set_ne _ _ _ _ here
      rw [other]
  frame := rfl

theorem applySection {s t : State} {kind spare : Nat} {body : List Byte} (e : s.applySection kind spare body = some t) :
    s.SettingsTaken t := by
  obtain ⟨-, ⟨-, xs, -, rfl, -⟩ | ⟨-, xs, -, rfl⟩ | ⟨-, xs, -, rfl⟩⟩ := applySection_eq_some.1 e
  · exact foldl profilePort xs s
  · exact foldl profileTriggerSet xs s
  · exact foldl profileLane xs s

end State.SettingsTaken

theorem takeSections_beyond {n : Nat} {rest : List Byte} {s : State}
    (beyond : rest.length < 4 ∨ rest.length < 4 + fieldAt rest 2 2) :
    State.takeSections (n + 1) rest s = s.skipSection := by
  rw [State.takeSections]
  exact if_pos beyond

theorem takeSections_applied {n : Nat} {rest : List Byte} {s v : State} (inside : 4 + fieldAt rest 2 2 ≤ rest.length)
    (applied : s.applySection (byteAt rest 0) (byteAt rest 1) ((rest.drop 4).take (fieldAt rest 2 2)) = some v) :
    State.takeSections (n + 1) rest s = State.takeSections n (rest.drop (4 + fieldAt rest 2 2)) v := by
  rw [State.takeSections]
  refine (if_neg (by omega)).trans ?_
  rw [applied]

theorem takeSections_skipped {n : Nat} {rest : List Byte} {s : State} (inside : 4 + fieldAt rest 2 2 ≤ rest.length)
    (skipped : s.applySection (byteAt rest 0) (byteAt rest 1) ((rest.drop 4).take (fieldAt rest 2 2)) = none) :
    State.takeSections (n + 1) rest s = State.takeSections n (rest.drop (4 + fieldAt rest 2 2)) s.skipSection := by
  rw [State.takeSections]
  refine (if_neg (by omega)).trans ?_
  rw [skipped]

theorem State.SettingsTaken.takeSections (n : Nat) (rest : List Byte) (s : State) :
    s.SettingsTaken (State.takeSections n rest s) := by
  induction n generalizing rest s with
  | zero => exact .refl s
  | succ n ih =>
    by_cases inside : 4 + fieldAt rest 2 2 ≤ rest.length
    · cases applied : s.applySection (byteAt rest 0) (byteAt rest 1) ((rest.drop 4).take (fieldAt rest 2 2)) with
      | some v =>
        rw [takeSections_applied inside applied]
        exact (State.SettingsTaken.applySection applied).trans (ih _ _)
      | none =>
        rw [takeSections_skipped inside applied]
        exact (State.SettingsTaken.skipSection s).trans (ih _ _)
    · rw [takeSections_beyond (.inr (by omega))]
      exact .skipSection s

/-! ## The reads of the flash -/

theorem State.flashInTime_iff (s : State) (at_ : Nat) : s.flashInTime at_ = true ↔ s.refTime < at_ + 50000 := by
  rw [State.flashInTime, decide_eq_true_iff, Config.answerPeriods]

/-- The probes that begin on every head (R190). -/
theorem State.beginProbes_spec {s t u : State} (units : t.sent = s.sent) (ref : t.refTime = s.refTime)
    (scene : t.sceneTime = s.sceneTime) (probes : u = t.beginProbes) :
    u.phase = .probing ∧
      (∀ p, u.ports.get p = { t.ports.get p with
        tag := (t.ports.get p).tag + 1
        exchange := some ⟨.probe, (t.ports.get p).tag + 1, .startUp, s.refTime + 50000, s.sceneTime, false⟩ }) ∧
      u = { t with
        phase := .probing, ports := u.ports
        sent := s.sent ++ (List.finRange 8).map fun p => .probe p ((t.ports.get p).tag + 1) } := by
  subst probes
  obtain ⟨frame, ports, sent⟩ :=
    State.foldl_beginExchange .probe .startUp (List.finRange 8) (List.nodup_finRange 8) { t with phase := .probing }
  rw [← units, ← ref, ← scene]
  refine ⟨congrArg State.phase frame, fun p => (ports p).trans (if_pos (List.mem_finRange p)), ?_⟩
  refine frame.trans ?_
  rw [← sent]
  rfl

/-- A read of the flash that settles the profile: the state from which the heads are probed. -/
def State.ProfileSettled (s : State) (tag at_ : Nat) (c : Instr) (t : State) : Prop :=
  (t = { s with profileDefaults := true } ∧
    (c = .profileReadTimeout ∧ at_ + 50000 ≤ s.refTime ∨
     s.refTime < at_ + 50000 ∧ (c = .profileReadDone tag .failed ∨ ∃ bytes, c = .profileReadDone tag (.data bytes) ∧
       (s.phase = .readingProfile tag at_ ∧ bytes.length < 16 ∨
        ∃ len, s.phase = .readingBlock tag at_ len ∧ (bytes.length < len ∨ profileGood bytes = false))))) ∨
   ∃ len bytes, s.phase = .readingBlock tag at_ len ∧ s.refTime < at_ + 50000 ∧ len ≤ bytes.length ∧
     profileGood bytes = true ∧ c = .profileReadDone tag (.data bytes) ∧
     t = State.takeSections (fieldAt bytes 8 2) ((bytes.take (fieldAt bytes 0 2)).drop 16) s

theorem exec_profileReadDone_header {s : State} {tag at_ : Nat} (reads : s.phase = .readingProfile tag at_)
    (early : s.refTime < at_ + 50000) (flash : FlashRead) :
    exec (.profileReadDone tag flash) s = .next (s.takeProfileHeader flash) := by
  dsimp only [exec, execProfileReadDone]
  rw [reads]
  exact if_pos ⟨rfl, (s.flashInTime_iff at_).2 early⟩

theorem exec_profileReadDone_block {s : State} {tag at_ len : Nat} (reads : s.phase = .readingBlock tag at_ len)
    (early : s.refTime < at_ + 50000) (flash : FlashRead) :
    exec (.profileReadDone tag flash) s = .next (s.settleProfile len flash).beginProbes := by
  dsimp only [exec, execProfileReadDone]
  rw [reads]
  exact if_pos ⟨rfl, (s.flashInTime_iff at_).2 early⟩

/-- A read that is not the one in flight, and one that has run out of its time, is dropped. -/
theorem exec_profileReadDone_dropped {s : State} {tag at_ k : Nat}
    (reads : s.phase = .readingProfile tag at_ ∨ ∃ len, s.phase = .readingBlock tag at_ len)
    (other : k ≠ tag ∨ at_ + 50000 ≤ s.refTime) (flash : FlashRead) : exec (.profileReadDone k flash) s = .next s := by
  have dropped : ¬ (tag = k ∧ s.flashInTime at_ = true) := by
    rintro ⟨same, early⟩
    have early := (s.flashInTime_iff at_).1 early
    omega
  dsimp only [exec, execProfileReadDone]
  obtain reads | ⟨len, reads⟩ := reads <;> rw [reads] <;> exact if_neg dropped

theorem exec_profileReadTimeout {s : State} {tag at_ : Nat}
    (reads : s.phase = .readingProfile tag at_ ∨ ∃ len, s.phase = .readingBlock tag at_ len) :
    exec .profileReadTimeout s = if s.flashInTime at_ then .next s else .next s.profileAside.beginProbes := by
  dsimp only [exec, execProfileReadTimeout]
  obtain reads | ⟨len, reads⟩ := reads <;> rw [reads]

/-- A settled profile leads to the probes of the heads. -/
theorem State.ProfileSettled.exec {s : State} {tag at_ : Nat} {c : Instr} {t : State} (settled : s.ProfileSettled tag at_ c t)
    (reads : s.phase = .readingProfile tag at_ ∨ ∃ len, s.phase = .readingBlock tag at_ len) :
    exec c s = .next t.beginProbes := by
  obtain ⟨rfl, aside⟩ | ⟨len, bytes, block, early, long, good, rfl, rfl⟩ := settled
  · obtain ⟨rfl, late⟩ | ⟨early, rfl | ⟨bytes, rfl, ⟨header, short⟩ | ⟨len, block, bad⟩⟩⟩ := aside
    · rw [exec_profileReadTimeout reads, if_neg (fun early => absurd ((s.flashInTime_iff at_).1 early) (by omega))]
      rfl
    · obtain header | ⟨len, block⟩ := reads
      · exact exec_profileReadDone_header header early _
      · exact exec_profileReadDone_block block early _
    · rw [exec_profileReadDone_header header early]
      exact congrArg _ (if_neg (by omega))
    · rw [exec_profileReadDone_block block early]
      have skips : ¬ (len ≤ bytes.length && profileGood bytes) = true := by
        rw [Bool.and_eq_true, decide_eq_true_eq]
        rintro ⟨long, good⟩
        obtain short | bad := bad
        · omega
        · simp [good] at bad
      have set : s.settleProfile len (.data bytes) = s.profileAside := if_neg skips
      rw [set]
      rfl
  · rw [exec_profileReadDone_block block early]
    have taken : (len ≤ bytes.length && profileGood bytes) = true := by simp [long, good]
    have set : s.settleProfile len (.data bytes) =
        State.takeSections (fieldAt bytes 8 2) ((bytes.take (fieldAt bytes 0 2)).drop 16) s := if_pos taken
    rw [set]

/-- Settling the profile sends nothing and leaves the clocks. -/
theorem State.ProfileSettled.clocks {s : State} {tag at_ : Nat} {c : Instr} {t : State} (settled : s.ProfileSettled tag at_ c t) :
    t.sent = s.sent ∧ t.refTime = s.refTime ∧ t.sceneTime = s.sceneTime := by
  obtain ⟨rfl, -⟩ | ⟨len, bytes, -, -, -, -, -, rfl⟩ := settled
  · exact ⟨rfl, rfl, rfl⟩
  · have frame := (State.SettingsTaken.takeSections (fieldAt bytes 8 2) ((bytes.take (fieldAt bytes 0 2)).drop 16) s).frame
    rw [frame]
    exact ⟨rfl, rfl, rfl⟩

/-- Settles O53: the reads by the phase they find; the sections by recursion on their number, each as it is judged whole; the
entries field by field. -/
theorem theProfileIsSettledAndTheHeadsProbed : Obligations.TheProfileIsSettledAndTheHeadsProbed := by
  refine ⟨?_, ?_, ?_, applySection_iff, ?_⟩
  · rintro bytes len rfl
    exact profileGood_iff bytes
  · intro s tag at_ reads
    refine ⟨fun k flash other => exec_profileReadDone_dropped reads other flash, fun early => ?_, ?_, ?_⟩
    · rw [exec_profileReadTimeout reads, if_pos ((s.flashInTime_iff at_).2 early)]
    · intro bytes header early long
      rw [exec_profileReadDone_header header early]
      exact congrArg _ (if_pos long)
    · intro c t settled
      have settled : s.ProfileSettled tag at_ c t := settled
      obtain ⟨sent, ref, scene⟩ := settled.clocks
      exact ⟨t.beginProbes, settled.exec reads, State.beginProbes_spec sent ref scene rfl⟩
  · rintro s t n rest rfl
    obtain ⟨ports, triggers, units, frame⟩ := State.SettingsTaken.takeSections n rest s
    refine ⟨ports, triggers, units, frame, ?_, ?_⟩
    · rintro rfl
      rfl
    · rintro m len rfl rfl
      exact ⟨takeSections_beyond, fun inside =>
        ⟨fun v applied => takeSections_applied inside applied, fun skipped => takeSections_skipped inside skipped⟩⟩
  · intro e
    refine ⟨fun x => ?_, fun x => profileTrigger_eq_some, fun x => ?_⟩
    · rw [portSetting_eq_some, profileClock_eq_some]
    · rw [laneSetting_eq_some, profileWindow_eq_some]

end Sys2Proof.Machine
end

section
/-!
SUPPORT. SCAN (R182): what one owner's event finds, how much of it fits, and what it clears.
-/

namespace Sys2Proof.Machine

/-! ## What is found -/

theorem mem_scanFrom {n : Nat} {slot : Nat} {f : Fin n → Option ScanEntry} {k : Nat} {e : ScanEntry} :
    (k, e) ∈ scanFrom slot f ↔ slot ≤ k ∧ ∃ i : Fin n, i.val = k ∧ f i = some e := by
  simp only [scanFrom, List.mem_filterMap, List.mem_filter, List.mem_finRange, true_and, decide_eq_true_eq,
    Option.map_eq_some_iff, Prod.mk.injEq]
  constructor
  · rintro ⟨i, from_, _, found, rfl, rfl⟩
    exact ⟨from_, i, rfl, found⟩
  · rintro ⟨from_, i, rfl, found⟩
    exact ⟨i, from_, e, found, rfl, rfl⟩

/-- A class is visited in ascending order. -/
theorem scanFrom_ascending {n : Nat} (slot : Nat) (f : Fin n → Option ScanEntry) :
    ((scanFrom slot f).map (·.1)).Pairwise (· < ·) := by
  rw [List.pairwise_map, scanFrom, List.pairwise_filterMap]
  refine List.Pairwise.filter _ ((List.pairwise_lt_finRange n).imp fun {i j} below x atI y atJ => ?_)
  obtain ⟨_, -, rfl⟩ := Option.map_eq_some_iff.1 atI
  obtain ⟨_, -, rfl⟩ := Option.map_eq_some_iff.1 atJ
  exact below

theorem inScope_iff (acting lane : Lane) : inScope acting lane = true ↔ acting = 0 ∨ acting = lane := by
  simp [inScope]

theorem State.scanEmitter_eq_some {s : State} {acting : Lane} {i : EntryNo} {e : ScanEntry} :
    s.scanEmitter acting i = some e ↔ ∃ r, (s.entries.get i).record = some r ∧ (acting = 0 ∨ acting = r.lane) ∧
      r.attention = true ∧ e = .emitter ⟨i, (s.entries.get i).gen⟩ r.state r.causes := by
  unfold State.scanEmitter State.handleAt
  cases record : (s.entries.get i).record with
  | none => simp
  | some r => simp [record, inScope_iff, and_assoc, eq_comm (a := e)]

theorem State.scanClip_eq_some {s : State} {acting : Lane} {i : ClipNo} {e : ScanEntry} :
    s.scanClip acting i = some e ↔
      (∃ c, (s.clips.get i).clip = some c ∧ (acting = 0 ∨ acting = c.lane) ∧ c.attention = true ∧
        e = .clip ⟨i, (s.clips.get i).gen⟩ c.state c.causes) ∨
      (∃ x, (s.clips.get i).clip = none ∧ (s.clips.get i).note = some x ∧ (acting = 0 ∨ acting = x.lane) ∧ e = .note x) := by
  unfold State.scanClip
  extract_lets x
  change _ ↔ (∃ c, x.clip = some c ∧ _) ∨ ∃ y, x.clip = none ∧ x.note = some y ∧ _
  cases x.clip with
  | some c => simp [inScope_iff, and_assoc, eq_comm (a := e), x]
  | none =>
    cases x.note with
    | none => simp
    | some y => simp [inScope_iff, eq_comm (a := e)]

theorem State.scanPort_eq_some {s : State} {acting : Lane} {p : Port} {e : ScanEntry} :
    s.scanPort acting p = some e ↔ (acting = 0 ∨ acting = (s.ports.get p).owner) ∧ (s.ports.get p).attention = true ∧
      e = .port p (s.ports.get p).head (s.ports.get p).causes := by
  simp [State.scanPort, inScope_iff, and_assoc, eq_comm (a := e)]

theorem State.scanTrigger_eq_some {s : State} {acting : Lane} {t : Trigger} {e : ScanEntry} :
    s.scanTrigger acting t = some e ↔ ∃ x, (s.triggers.get t).note = some x ∧
      (acting = 0 ∨ acting = (s.triggers.get t).owner) ∧ e = .trigger t x.latest x.count := by
  unfold State.scanTrigger
  extract_lets r
  change _ ↔ ∃ x, r.note = some x ∧ _
  cases r.note with
  | none => simp
  | some x => simp [inScope_iff, eq_comm (a := e), r]

theorem State.scanFound_ascending (s : State) (w : ScanWalk) : ((s.scanFound w).map (·.1)).Pairwise (· < ·) := by
  unfold State.scanFound
  split
  · exact scanFrom_ascending _ _
  · exact scanFrom_ascending _ _
  · have whole := scanFrom_ascending w.slot (s.scanPort w.lane)
    rw [List.pairwise_map] at whole ⊢
    exact whole.filter _
  · exact scanFrom_ascending _ _

/-- What an owner's event of a SCAN finds, class by class. -/
theorem State.mem_scanFound (s : State) (w : ScanWalk) (n : Nat) (e : ScanEntry) : (n, e) ∈ s.scanFound w ↔
    (w.cls = .emitters ∧ w.slot ≤ n ∧ ∃ i : EntryNo, ∃ r, i.val = n ∧ (s.entries.get i).record = some r ∧
      (w.lane = 0 ∨ w.lane = r.lane) ∧ r.attention = true ∧
      e = .emitter ⟨i, (s.entries.get i).gen⟩ r.state r.causes) ∨
    (w.cls = .clips ∧ w.slot ≤ n ∧ ∃ i : ClipNo, i.val = n ∧
      ((∃ c, (s.clips.get i).clip = some c ∧ (w.lane = 0 ∨ w.lane = c.lane) ∧ c.attention = true ∧
          e = .clip ⟨i, (s.clips.get i).gen⟩ c.state c.causes) ∨
        (∃ x, (s.clips.get i).clip = none ∧ (s.clips.get i).note = some x ∧ (w.lane = 0 ∨ w.lane = x.lane) ∧
          e = .note x))) ∨
    (w.cls = .ports ∧ w.slot = n ∧ ∃ i : Port, i.val = n ∧ (w.lane = 0 ∨ w.lane = (s.ports.get i).owner) ∧
      (s.ports.get i).attention = true ∧ e = .port i (s.ports.get i).head (s.ports.get i).causes) ∨
    (w.cls = .triggers ∧ w.slot ≤ n ∧ ∃ i : Trigger, ∃ x, i.val = n ∧ (s.triggers.get i).note = some x ∧
      (w.lane = 0 ∨ w.lane = (s.triggers.get i).owner) ∧ e = .trigger i x.latest x.count) := by
  unfold State.scanFound
  cases w.cls with
  | emitters => simp [mem_scanFrom, State.scanEmitter_eq_some]
  | clips => simp [mem_scanFrom, State.scanClip_eq_some]
  | ports =>
    simp only [List.mem_filter, mem_scanFrom, State.scanPort_eq_some, beq_iff_eq, reduceCtorEq, false_and, true_and,
      false_or, or_false]
    constructor
    · rintro ⟨⟨-, i, here, found⟩, same⟩
      exact ⟨same.symm, i, here, found⟩
    · rintro ⟨same, i, here, found⟩
      exact ⟨⟨same.le, i, here, found⟩, same.symm⟩
  | triggers => simp [mem_scanFrom, State.scanTrigger_eq_some]

/-! ## What fits -/

theorem wordsOf_cons (e : ScanEntry) (es : List ScanEntry) : wordsOf (e :: es) = e.words + wordsOf es := List.sum_cons

/-- As many entries are written as fit beside the continuation word, and no more. -/
theorem fitCount_spec (room used : Nat) (found : List (Nat × ScanEntry)) :
    fitCount room used found ≤ found.length ∧
    (0 < fitCount room used found →
      used + wordsOf ((found.take (fitCount room used found)).map (·.2)) + 1 ≤ room) ∧
    ∀ x, found[fitCount room used found]? = some x →
      room < used + wordsOf ((found.take (fitCount room used found)).map (·.2)) + x.2.words + 1 := by
  induction found generalizing used with
  | nil => simp [fitCount]
  | cons x xs ih =>
    obtain ⟨few, fits, full⟩ := ih (used + x.2.words)
    unfold fitCount
    split
    · next room1 =>
      rw [Nat.add_comm 1, List.take_succ_cons, List.map_cons, wordsOf_cons, List.getElem?_cons_succ, List.length_cons]
      refine ⟨by omega, fun _ => ?_, fun y given => ?_⟩
      · obtain zero | some := Nat.eq_zero_or_pos (fitCount room (used + x.2.words) xs)
        · rw [zero]
          simpa [wordsOf] using room1
        · have := fits some
          omega
      · have := full y given
        omega
    · next none =>
      refine ⟨Nat.zero_le _, nofun, ?_⟩
      rintro y ⟨⟩
      simpa [wordsOf] using none

/-! ## What is cleared -/

theorem State.clearScanned_emitter (s : State) (h : EmitterHandle) (st : EmState) (causes : EmCauses) :
    s.clearScanned (.emitter h st causes) = s.modifyRecord h Record.clearAttention := rfl

theorem State.clearScanned_frame (s : State) (e : ScanEntry) :
    s.clearScanned e = { s with
      entries := (s.clearScanned e).entries, clips := (s.clearScanned e).clips, ports := (s.clearScanned e).ports
      triggers := (s.clearScanned e).triggers } := by
  cases e with
  | emitter h st causes =>
    rw [State.clearScanned_emitter, State.modifyRecord_frame]
  | clip h st causes =>
    unfold State.clearScanned
    dsimp only
    split <;> rfl
  | port => rfl
  | trigger => rfl
  | note => rfl

/-- A property that one entry's clearing gives, and every clearing keeps, holds after a list of clearings in which the entry
stands. -/
theorem foldl_clearScanned_reaches {before after : State → Prop} {e : ScanEntry}
    (gives : ∀ s, before s → after (s.clearScanned e)) (keeps : ∀ s x, after s → after (State.clearScanned s x))
    (meanwhile : ∀ s x, before s → before (State.clearScanned s x) ∨ after (State.clearScanned s x)) {es : List ScanEntry}
    (mem : e ∈ es) {s : State} (start : before s) : after (es.foldl State.clearScanned s) := by
  have stays : ∀ (xs : List ScanEntry) (t : State), after t → after (xs.foldl State.clearScanned t) := by
    intro xs
    induction xs with
    | nil => exact fun t done => done
    | cons x xs ih => exact fun t done => ih _ (keeps t x done)
  induction es generalizing s with
  | nil => simp at mem
  | cons x xs ih =>
    obtain rfl | mem := List.mem_cons.1 mem
    · exact stays xs _ (gives s start)
    · obtain same | done := meanwhile s x start
      · exact ih mem same
      · exact stays xs _ done

/-- What no clearing of a list changes is as before. -/
theorem foldl_clearScanned_keeps {α : Type} (f : State → α) {es : List ScanEntry}
    (keeps : ∀ e ∈ es, ∀ s, f (State.clearScanned s e) = f s) (s : State) : f (es.foldl State.clearScanned s) = f s := by
  induction es generalizing s with
  | nil => rfl
  | cons x xs ih =>
    rw [List.foldl_cons, ih (fun e mem => keeps e (List.mem_cons_of_mem _ mem)), keeps x (List.mem_cons_self ..)]

theorem State.foldl_clearScanned_frame (es : List ScanEntry) (s : State) :
    es.foldl State.clearScanned s = { s with
      entries := (es.foldl State.clearScanned s).entries, clips := (es.foldl State.clearScanned s).clips
      ports := (es.foldl State.clearScanned s).ports, triggers := (es.foldl State.clearScanned s).triggers } := by
  induction es generalizing s with
  | nil => rfl
  | cons x xs ih =>
    rw [List.foldl_cons, ih, State.clearScanned_frame]

/-- One clearing leaves a record or clears it. -/
theorem State.clearScanned_recordAt {s : State} {h : EmitterHandle} {r : Record} (e : s.recordAt h = some r) (x : ScanEntry) :
    (s.clearScanned x).recordAt h = some r ∨ (s.clearScanned x).recordAt h = some r.clearAttention := by
  cases x with
  | emitter k st causes =>
    rw [State.clearScanned_emitter, State.modifyRecord_recordAt]
    split
    · next same => exact .inr (by rw [← same, e, Option.map_some])
    · exact .inl e
  | clip k st causes =>
    refine .inl (Eq.trans ?_ e)
    unfold State.clearScanned
    dsimp only
    split <;> rfl
  | port => exact .inl e
  | trigger => exact .inl e
  | note => exact .inl e

/-- One clearing leaves a clip or clears it. -/
theorem State.clearScanned_clipAt {s : State} {h : ClipHandle} {c : Clip} (e : s.clipAt h = some c) (x : ScanEntry) :
    (s.clearScanned x).clipAt h = some c ∨ (s.clearScanned x).clipAt h = some c.clearAttention := by
  cases x with
  | emitter k st causes =>
    refine .inl (Eq.trans ?_ e)
    rw [State.clearScanned_emitter, State.modifyRecord_frame]
    rfl
  | clip k st causes =>
    unfold State.clearScanned
    dsimp only
    split
    · next d clip =>
      by_cases slot : h.slot = k.slot
      · obtain rfl := State.clipAt_handle e clip slot
        obtain rfl := Option.some.inj (e.symm.trans clip)
        exact .inr (State.clipAt_putClip e _)
      · refine .inl ?_
        rw [State.clipAt, State.putClip_other s _ _ h.slot slot]
        exact e
    · exact .inl e
  | port => exact .inl e
  | trigger => exact .inl e
  | note y =>
    refine .inl (Eq.trans ?_ e)
    by_cases slot : h.slot = y.handle.slot
    · simp [State.clearScanned, State.clipAt, State.setClip, slot]
    · have other : (s.clearScanned (.note y)).clips.get h.slot = s.clips.get h.slot := Table.get_set_ne _ _ _ _ slot
      rw [State.clipAt, State.clipAt, other]

/-- No clearing sets a drained note. -/
theorem State.clearScanned_note {s : State} {i : ClipNo} (e : (s.clips.get i).note = none) (x : ScanEntry) :
    ((s.clearScanned x).clips.get i).note = none := by
  cases x with
  | emitter k st causes =>
    rw [State.clearScanned_emitter, State.modifyRecord_frame]
    exact e
  | clip k st causes =>
    unfold State.clearScanned
    dsimp only
    split
    · by_cases slot : i = k.slot
      · subst slot
        simpa [State.putClip, State.setClip] using e
      · rw [State.putClip_other s _ _ i slot]
        exact e
    · exact e
  | port => exact e
  | trigger => exact e
  | note y =>
    by_cases slot : i = y.handle.slot
    · subst slot
      simp [State.clearScanned, State.setClip]
    · have other : (s.clearScanned (.note y)).clips.get i = s.clips.get i := Table.get_set_ne _ _ _ _ slot
      rw [other]
      exact e

/-- One clearing leaves a port or clears it. -/
theorem State.clearScanned_port (s : State) (k : Port) (x : ScanEntry) :
    (s.clearScanned x).ports.get k = s.ports.get k ∨ (s.clearScanned x).ports.get k = (s.ports.get k).clearAttention := by
  cases x with
  | emitter h st causes =>
    refine .inl ?_
    rw [State.clearScanned_emitter, State.modifyRecord_frame]
  | clip h st causes =>
    refine .inl ?_
    unfold State.clearScanned
    dsimp only
    split <;> rfl
  | port p st causes =>
    by_cases here : k = p
    · subst here
      exact .inr (Table.get_set_self ..)
    · exact .inl (Table.get_set_ne _ _ _ _ here)
  | trigger => exact .inl rfl
  | note => exact .inl rfl

/-- One clearing leaves a trigger or takes its note. -/
theorem State.clearScanned_trigger (s : State) (k : Trigger) (x : ScanEntry) :
    (s.clearScanned x).triggers.get k = s.triggers.get k ∨
      (s.clearScanned x).triggers.get k = { s.triggers.get k with note := none } := by
  cases x with
  | emitter h st causes =>
    refine .inl ?_
    rw [State.clearScanned_emitter, State.modifyRecord_frame]
  | clip h st causes =>
    refine .inl ?_
    unfold State.clearScanned
    dsimp only
    split <;> rfl
  | port => exact .inl rfl
  | trigger t latest count =>
    by_cases here : k = t
    · subst here
      exact .inr (Table.get_set_self ..)
    · exact .inl (Table.get_set_ne _ _ _ _ here)
  | note => exact .inl rfl

/-- What the clearing of reported entries leaves: what each of them names is cleared, and everything else is as before. -/
structure State.ScanCleared (s t : State) (written : List ScanEntry) : Prop where
  emitters : ∀ h st causes r, .emitter h st causes ∈ written → s.recordAt h = some r → t.recordAt h = some r.clearAttention
  clips : ∀ h st causes c, .clip h st causes ∈ written → s.clipAt h = some c → t.clipAt h = some c.clearAttention
  notes : ∀ x, .note x ∈ written → (t.clips.get x.handle.slot).note = none
  ports : ∀ k st causes, .port k st causes ∈ written → t.ports.get k = (s.ports.get k).clearAttention
  triggers : ∀ k latest count, .trigger k latest count ∈ written → t.triggers.get k = { s.triggers.get k with note := none }
  otherEntries : ∀ i, (∀ h st causes, .emitter h st causes ∈ written → h.slot ≠ i) → t.entries.get i = s.entries.get i
  otherClips : ∀ i, (∀ h st causes, .clip h st causes ∈ written → h.slot ≠ i) →
    (∀ x, .note x ∈ written → x.handle.slot ≠ i) → t.clips.get i = s.clips.get i
  otherPorts : ∀ k, (∀ st causes, .port k st causes ∉ written) → t.ports.get k = s.ports.get k
  otherTriggers : ∀ k, (∀ latest count, .trigger k latest count ∉ written) → t.triggers.get k = s.triggers.get k
  frame : t = { s with entries := t.entries, clips := t.clips, ports := t.ports, triggers := t.triggers }

theorem State.clearScanned_otherEntry (s : State) {i : EntryNo} {e : ScanEntry}
    (other : ∀ h st causes, e = .emitter h st causes → h.slot ≠ i) : (s.clearScanned e).entries.get i = s.entries.get i := by
  cases e with
  | emitter h st causes => exact State.modifyRecord_otherEntry s _ (other h st causes rfl)
  | clip k st causes =>
    unfold State.clearScanned
    dsimp only
    split <;> rfl
  | port => rfl
  | trigger => rfl
  | note => rfl

theorem State.clearScanned_otherClip (s : State) {i : ClipNo} {e : ScanEntry}
    (clip : ∀ h st causes, e = .clip h st causes → h.slot ≠ i) (note : ∀ x, e = .note x → x.handle.slot ≠ i) :
    (s.clearScanned e).clips.get i = s.clips.get i := by
  cases e with
  | emitter h st causes =>
    rw [State.clearScanned_emitter, State.modifyRecord_frame]
  | clip k st causes =>
    unfold State.clearScanned
    dsimp only
    split
    · exact State.putClip_other s _ _ i (clip k st causes rfl).symm
    · rfl
  | port => rfl
  | trigger => rfl
  | note x => exact Table.get_set_ne _ _ _ _ (note x rfl).symm

theorem State.clearScanned_otherPort (s : State) {k : Port} {e : ScanEntry} (other : ∀ st causes, e ≠ .port k st causes) :
    (s.clearScanned e).ports.get k = s.ports.get k := by
  cases e with
  | port p st causes =>
    refine Table.get_set_ne _ _ _ _ fun same => ?_
    subst same
    exact other st causes rfl
  | emitter h st causes =>
    rw [State.clearScanned_emitter, State.modifyRecord_frame]
  | clip h st causes =>
    unfold State.clearScanned
    dsimp only
    split <;> rfl
  | trigger => rfl
  | note => rfl

theorem State.clearScanned_otherTrigger (s : State) {k : Trigger} {e : ScanEntry}
    (other : ∀ latest count, e ≠ .trigger k latest count) : (s.clearScanned e).triggers.get k = s.triggers.get k := by
  cases e with
  | trigger t latest count =>
    refine Table.get_set_ne _ _ _ _ fun same => ?_
    subst same
    exact other latest count rfl
  | emitter h st causes =>
    rw [State.clearScanned_emitter, State.modifyRecord_frame]
  | clip h st causes =>
    unfold State.clearScanned
    dsimp only
    split <;> rfl
  | port => rfl
  | note => rfl

theorem State.foldl_clearScanned (s : State) (written : List ScanEntry) :
    s.ScanCleared (written.foldl State.clearScanned s) written where
  emitters h st causes r mem e := by
    refine foldl_clearScanned_reaches (before := fun s => s.recordAt h = some r)
      (after := fun s => s.recordAt h = some r.clearAttention) (fun t at_ => ?_) (fun t x at_ => ?_)
      (fun t x at_ => State.clearScanned_recordAt at_ x) mem e
    · change (t.modifyRecord h _).recordAt h = _
      rw [State.modifyRecord_recordAt, if_pos rfl, at_]
      rfl
    · obtain same | cleared := State.clearScanned_recordAt at_ x
      · exact same
      · exact cleared
  clips h st causes c mem e := by
    refine foldl_clearScanned_reaches (before := fun s => s.clipAt h = some c)
      (after := fun s => s.clipAt h = some c.clearAttention) (fun t at_ => ?_) (fun t x at_ => ?_)
      (fun t x at_ => State.clearScanned_clipAt at_ x) mem e
    · unfold State.clearScanned
      dsimp only
      rw [at_]
      exact State.clipAt_putClip at_ _
    · obtain same | cleared := State.clearScanned_clipAt at_ x
      · exact same
      · exact cleared
  notes x mem :=
    foldl_clearScanned_reaches (before := fun _ => True) (after := fun s => (s.clips.get x.handle.slot).note = none)
      (fun t _ => by simp [State.clearScanned, State.setClip]) (fun t y gone => State.clearScanned_note gone y)
      (fun _ _ _ => .inl trivial) mem trivial
  ports k st causes mem := by
    refine foldl_clearScanned_reaches (before := fun t => t.ports.get k = s.ports.get k)
      (after := fun t => t.ports.get k = (s.ports.get k).clearAttention) (fun t at_ => ?_) (fun t x at_ => ?_)
      (fun t x at_ => ?_) mem rfl
    · rw [← at_]
      exact Table.get_set_self ..
    · obtain same | cleared := State.clearScanned_port t k x
      · exact same.trans at_
      · rw [cleared, at_]
        rfl
    · rw [← at_]
      exact State.clearScanned_port t k x
  triggers k latest count mem := by
    refine foldl_clearScanned_reaches (before := fun t => t.triggers.get k = s.triggers.get k)
      (after := fun t => t.triggers.get k = { s.triggers.get k with note := none }) (fun t at_ => ?_) (fun t x at_ => ?_)
      (fun t x at_ => ?_) mem rfl
    · rw [← at_]
      exact Table.get_set_self ..
    · obtain same | cleared := State.clearScanned_trigger t k x
      · exact same.trans at_
      · rw [cleared, at_]
    · rw [← at_]
      exact State.clearScanned_trigger t k x
  otherEntries i other :=
    foldl_clearScanned_keeps (·.entries.get i)
      (fun e mem t => State.clearScanned_otherEntry t fun h st causes is => other h st causes (is ▸ mem)) s
  otherClips i clip note :=
    foldl_clearScanned_keeps (·.clips.get i)
      (fun e mem t => State.clearScanned_otherClip t (fun h st causes is => clip h st causes (is ▸ mem))
        fun x is => note x (is ▸ mem)) s
  otherPorts k other :=
    foldl_clearScanned_keeps (·.ports.get k)
      (fun e mem t => State.clearScanned_otherPort t fun st causes is => other st causes (is ▸ mem)) s
  otherTriggers k other :=
    foldl_clearScanned_keeps (·.triggers.get k)
      (fun e mem t => State.clearScanned_otherTrigger t fun latest count is => other latest count (is ▸ mem)) s
  frame := State.foldl_clearScanned_frame written s

/-! ## The steps of a SCAN -/

/-- The state from which an owner's event of a SCAN goes on: what it reports is cleared where the block carries CLEAR. -/
def State.scanLeft (s : State) (w : ScanWalk) (written : List ScanEntry) : State :=
  { (if w.clear then written.foldl State.clearScanned s else s) with walk := none }

/-- The walk after an owner's event of a SCAN, at the class or port where it stood. -/
def ScanWalk.reported (w : ScanWalk) (written : List ScanEntry) : ScanWalk :=
  { w with entries := w.entries ++ written, used := w.used + wordsOf written }

theorem State.scanStep_stops {s : State} {w : ScanWalk} {x : Nat × ScanEntry} {written : List ScanEntry}
    (which : written = ((s.scanFound w).take (fitCount w.room w.used (s.scanFound w))).map (·.2))
    (left : (s.scanFound w)[fitCount w.room w.used (s.scanFound w)]? = some x) :
    s.scanStep w = (s.scanLeft w written).beginWrite w.lane ⟨.done, .scan (w.entries ++ written) (.from w.cls x.1)⟩
      (min (w.used + wordsOf written + 1) w.room) false := by
  subst which
  obtain ⟨inside, rfl⟩ := List.getElem?_eq_some_iff.1 left
  unfold State.scanStep
  extract_lets found n written s v
  have rest : found.drop n = found[n] :: found.drop (n + 1) := List.drop_eq_getElem_cons inside
  rw [rest]
  rfl

theorem State.scanStep_onward {s : State} {w : ScanWalk} {written : List ScanEntry}
    (which : written = ((s.scanFound w).take (fitCount w.room w.used (s.scanFound w))).map (·.2))
    (all : fitCount w.room w.used (s.scanFound w) = (s.scanFound w).length) :
    s.scanStep w = match (w.reported written).onward with
      | some v => { s.scanLeft w written with walk := some (.scan v) }
      | none => (s.scanLeft w written).beginWrite w.lane ⟨.done, .scan (w.entries ++ written) .doneAll⟩
        (min (w.used + wordsOf written + 1) w.room) false := by
  subst which
  unfold State.scanStep
  extract_lets found n written s v
  have rest : found.drop n = [] := List.drop_eq_nil_of_le all.ge
  rw [rest]
  rfl

theorem exec_scanClassRead {s : State} {w : ScanWalk} (walks : s.walk = some (.scan w)) :
    exec .scanClassRead s = .next (s.scanStep w) := by
  dsimp only [exec, execScanClassRead]
  rw [walks]

/-- Where a walk goes on after a class or a port that has been taken whole. -/
theorem ScanWalk.onward_spec {w : ScanWalk} (more : w.cls ≠ .triggers) : ∃ v, w.onward = some v ∧
    v = { w with cls := v.cls, slot := v.slot } ∧
    (w.cls = .emitters → v.cls = .clips ∧ v.slot = 0) ∧ (w.cls = .clips → v.cls = .ports ∧ v.slot = 0) ∧
    (w.cls = .ports → w.slot < 7 → v.cls = .ports ∧ v.slot = w.slot + 1) ∧
    (w.cls = .ports → 7 ≤ w.slot → v.cls = .triggers ∧ v.slot = 0) := by
  unfold ScanWalk.onward
  cases cls : w.cls with
  | emitters => exact ⟨_, rfl, rfl, by simp⟩
  | clips => exact ⟨_, rfl, rfl, by simp⟩
  | ports =>
    by_cases last : w.slot + 1 < 8
    · refine ⟨_, if_pos last, ?_, nofun, nofun, fun _ _ => ⟨rfl, rfl⟩, fun _ late => ?_⟩
      · rfl
      · omega
    · refine ⟨_, if_neg last, ?_, nofun, nofun, fun _ early => ?_, fun _ _ => ⟨rfl, rfl⟩⟩
      · rfl
      · omega
  | triggers => exact absurd cls more

theorem exec_scan_from {s : State} {l : Lane} {first : Option ScanStart} {clear : Bool}
    (handed : s.Handed l (.scan first) (fun h => h.clear == clear)) {c : ScanClass} {n : Nat}
    (start : checkScanStart first = .ok (c, n)) :
    exec (.scan l first clear) s = .next { s with
      walk := some (.scan ⟨l, clear, c, n, [], 0, (s.units.get l).header.resLen.toNat⟩) } :=
  exec_scan_accepted handed start

/-- Settles O51: where a SCAN begins by the form of its starting point; an owner's event by what it finds, how much of that fits,
and what it clears. -/
theorem aScanVisitsEveryClass : Obligations.AScanVisitsEveryClass := by
  intro s
  refine ⟨?_, ?_⟩
  · intro l first clear handed
    refine ⟨?_, ?_, ?_⟩
    · rintro rfl
      exact exec_scan_from handed rfl
    · rintro c n rfl inside
      exact exec_scan_from handed (if_pos inside)
    · rintro c n rfl beyond
      exact exec_scan_refused handed (if_neg (by simpa using beyond))
  · rintro w found walks rfl
    refine ⟨s.scanFound_ascending w, s.mem_scanFound w, ?_⟩
    obtain ⟨few, fits, full⟩ := fitCount_spec w.room w.used (s.scanFound w)
    generalize which : ((s.scanFound w).take (fitCount w.room w.used (s.scanFound w))).map (·.2) = written at fits full
    refine ⟨s.scanLeft w written, s.scanStep w, fitCount w.room w.used (s.scanFound w), written, exec_scanClassRead walks, few,
      which.symm, fits, full, rfl, ?_, ?_, ?_, ?_, ?_⟩
    · exact fun x left => State.scanStep_stops which.symm left
    · intro all last
      have none : (w.reported written).onward = .none := by simp [ScanWalk.onward, ScanWalk.reported, last]
      rw [State.scanStep_onward which.symm all, none]
    · intro all more
      obtain ⟨v, onward, same, goes⟩ := ScanWalk.onward_spec (w := w.reported written) more
      refine ⟨v, ?_, same, goes⟩
      rw [State.scanStep_onward which.symm all, onward]
    · intro keeps
      rw [State.scanLeft, keeps]
      rfl
    · intro clears
      have left : s.scanLeft w written = { written.foldl State.clearScanned s with walk := none } := by
        rw [State.scanLeft, if_pos clears]
      obtain ⟨emitters, clips, notes, ports, triggers, otherEntries, otherClips, otherPorts, otherTriggers, frame⟩ :=
        s.foldl_clearScanned written
      rw [left]
      refine ⟨emitters, clips, notes, ports, triggers, otherEntries, otherClips, otherPorts, otherTriggers, ?_⟩
      exact congrArg (fun t : State => { t with walk := none }) frame

end Sys2Proof.Machine
end

section
/-!
SUPPORT. MODIFY: what its checks have found and what has passed them (R93 to R97), its staging (R98 to R101), and the slot that
takes over a new loop (R82).
-/

namespace Sys2Proof.Machine

/-! ## The checks -/

/-- The checks of a MODIFY that is accepted, as they are made. -/
structure State.ModifyChecks (s : State) (l : Lane) (q : ModifyReq) (x : ModifyFound) (c : Clip) : Prop where
  form : modifyForm q = true
  apply : applyPointOf q.apply = some x.apply
  ranges : modifyRanges q = true
  handle : q.emitter.emitter = some x.handle
  values : x.values = newValues q (q.loop.bind (·.mode))
  record : s.recordAt x.handle = some x.record
  known : s.fadesKnown (x.values.paths.getD []) = true
  rights : (laneMay l x.record.lane && s.applyAllowed l x.apply && s.fadesAllowed x.record.lane (x.values.paths.getD []) &&
    (x.values.joins x.record).all fun p => x.record.lane == 0 || (s.ports.get p).owner == x.record.lane) = true
  live : x.record.state.isLive = true
  clip : s.clipAt x.record.clip = some c
  fitted : ∀ p ∈ x.values.joins x.record, ((s.ports.get p).head != .unfitted) = true
  rates : ∀ p ∈ x.values.joins x.record, (s.portRate p == c.rate) = true
  placed : s.modifyPlaced x.record c x.values = true
  delays : delaysFit (x.values.loopAfter x.record) c.length (x.values.pathsAfter x.record) = true
  pool : ¬ (s.withdrawChange x.handle).poolFree < x.values.extraPaths x.record
  full : ∀ p ∈ x.values.joins x.record,
    decide (((s.withdrawChange x.handle).ports.get p).members.length +
      ((s.withdrawChange x.handle).ports.get p).reservedJoins ≤ 15) = true
  headroom : ∀ p ∈ portsOf (x.values.portsAfter x.record), (x.values.keepsWithin x.record p ||
    decide (((s.withdrawChange x.handle).ports.get p).committed + x.values.increase x.record p ≤
      ((s.withdrawChange x.handle).ports.get p).budget)) = true
  time : s.modifyInTime x.apply x.values = true

theorem State.checkModify_checks {s : State} {l : Lane} {q : ModifyReq} {x : ModifyFound} (e : s.checkModify l q = .ok x) :
    ∃ c, s.ModifyChecks l q x c := by
  obtain ⟨form, e⟩ := need_bind_ok.1 e
  obtain ⟨a, apply, e⟩ := want_bind_ok.1 e
  obtain ⟨ranges, e⟩ := need_bind_ok.1 e
  obtain ⟨h, handle, e⟩ := want_bind_ok.1 e
  obtain ⟨r, record, e⟩ := want_bind_ok.1 e
  obtain ⟨known, e⟩ := need_bind_ok.1 e
  obtain ⟨rights, e⟩ := need_bind_ok.1 e
  obtain ⟨live, e⟩ := need_bind_ok.1 e
  obtain ⟨c, clip, e⟩ := want_bind_ok.1 e
  obtain ⟨fitted, e⟩ := needPorts_bind_ok.1 e
  obtain ⟨rates, e⟩ := needPorts_bind_ok.1 e
  obtain ⟨placed, e⟩ := need_bind_ok.1 e
  obtain ⟨delays, e⟩ := need_bind_ok.1 e
  simp only at e
  split at e
  · cases e
  rename_i pool
  obtain ⟨full, e⟩ := needPorts_bind_ok.1 e
  obtain ⟨headroom, e⟩ := needPorts_bind_ok.1 e
  obtain ⟨time, e⟩ := need_bind_ok.1 e
  cases e
  exact ⟨c, form, apply, ranges, handle, rfl, record, known, rights, live, clip, fitted, rates, placed, delays, pool, full,
    headroom, time⟩

/-! ## What the checks have found (R93) -/

theorem emitter_eq_some {raw : RawHandle} {h : EmitterHandle} (e : raw.emitter = some h) :
    h.slot.val = raw.slot.toNat ∧ h.gen = raw.gen := by
  unfold RawHandle.emitter at e
  split at e
  · cases e
    exact ⟨rfl, rfl⟩
  · cases e

theorem applyPointOf_eq_some {f : ApplyField} {a : Option ApplyPoint} (e : applyPointOf f = some a) :
    f = .now ∧ a = none ∨ f = .nextFrame ∧ a = some .nextFrame ∨ (∃ t, f = .at t ∧ a = some (.at t)) ∨
      ∃ b, ∃ t : Trigger, f = .on b ∧ t.val = b.toNat ∧ a = some (.on t) := by
  match f with
  | .now =>
    cases e
    exact .inl ⟨rfl, rfl⟩
  | .nextFrame =>
    cases e
    exact .inr (.inl ⟨rfl, rfl⟩)
  | .at t =>
    cases e
    exact .inr (.inr (.inl ⟨t, rfl, rfl⟩))
  | .on b =>
    obtain ⟨t, named, rfl⟩ := Option.map_eq_some_iff.1 e
    exact .inr (.inr (.inr ⟨b, t, rfl, eight_some named, rfl⟩))
  | .unknown => cases e

theorem StopField.change_eq (f : StopField) :
    (f.kind = 0 → f.change = .keep) ∧ (f.kind = 1 → f.change = .set f.time) ∧ (f.kind = 2 → f.change = .remove) := by
  refine ⟨fun kind => ?_, fun kind => ?_, fun kind => ?_⟩
  all_goals simp [StopField.change, kind]

theorem CueField.change_eq {f : CueField} (ranged : f.inRange = true) :
    (f.kind = 0 → f.change = .keep) ∧
    (f.kind = 1 → ∃ n : CueLine, n.val = f.line.toNat ∧ f.change = .set ⟨f.sample.toNat, n⟩) ∧
    (f.kind = 2 → f.change = .remove) := by
  refine ⟨fun kind => ?_, fun kind => ?_, fun kind => ?_⟩
  · simp [CueField.change, kind]
  · have low := (CueField.inRange_iff f).1 ranged kind
    obtain ⟨n, line⟩ := Option.isSome_iff_exists.1 ((four_isSome_iff f.line).2 low)
    exact ⟨n, four_some line, by simp [CueField.change, kind, line]⟩
  · simp [CueField.change, kind]

/-- The form of a MODIFY (R95, step 1). -/
theorem modifyForm_iff (q : ModifyReq) : modifyForm q = true ↔
    (q.paths.isSome = true ∨ q.carrier.isSome = true ∨ q.ports.isSome = true ∨ q.loop.isSome = true ∨ q.stop.kind ≠ 0 ∨
      q.cue.kind ≠ 0) ∧ q.unmodifiable = false ∧ q.apply ≠ .unknown ∧
    (∀ ps, q.paths = some ps → 1 ≤ ps.length ∧ ps.length ≤ 8) ∧ q.ports ≠ some 0 ∧ q.loop ≠ some .unknown := by
  unfold modifyForm
  cases paths : q.paths with
  | none => simp [modifyCarries, paths, and_assoc, or_assoc]
  | some ps => simp [modifyCarries, paths, pathCountOk, and_assoc]

/-- The fixed ranges of a MODIFY (R95, step 2). -/
theorem modifyRanges_iff (q : ModifyReq) : modifyRanges q = true ↔
    (∀ ps, q.paths = some ps → ∀ f ∈ ps, f.Ranged) ∧ (∀ f, q.loop = some f → f.inRange = true) ∧ q.cue.inRange = true ∧
      ∀ t u, q.apply = .at t → q.stop.change = .set u → t.toNat < u.toNat := by
  have paths : (q.paths.getD []).all (·.inRange) = true ↔ ∀ ps, q.paths = some ps → ∀ f ∈ ps, f.Ranged := by
    cases q.paths <;> simp [PathField.inRange_iff]
  have stop : stopAfterApply q = true ↔ ∀ t u, q.apply = .at t → q.stop.change = .set u → t.toNat < u.toNat := by
    unfold stopAfterApply
    split
    · next t u at_ set => simp [at_, set]
    · next other => exact ⟨fun _ t u at_ set => absurd set (other t u at_), fun _ => rfl⟩
  rw [modifyRanges, Bool.and_eq_true, Bool.and_eq_true, Bool.and_eq_true, paths, stop, and_assoc, and_assoc]
  cases loop : q.loop with
  | none => simp
  | some f => simp

/-- What the loop field of a MODIFY gives. -/
theorem loop_given {q : ModifyReq} (known : q.loop ≠ some .unknown) :
    q.loop = none ∧ q.loop.bind (·.mode) = none ∨ q.loop = some .once ∧ q.loop.bind (·.mode) = some .once ∨
      ∃ a b, q.loop = some (.loop a b) ∧ q.loop.bind (·.mode) = some (.loop a.toNat b.toNat) := by
  cases loop : q.loop with
  | none => exact .inl ⟨rfl, rfl⟩
  | some f =>
    cases f with
    | once => exact .inr (.inl ⟨rfl, rfl⟩)
    | loop a b => exact .inr (.inr ⟨a, b, rfl, rfl⟩)
    | unknown => exact absurd loop known

theorem State.ModifyChecks.gives {s : State} {l : Lane} {q : ModifyReq} {x : ModifyFound} {c : Clip}
    (k : s.ModifyChecks l q x c) : q.Gives x := by
  obtain ⟨slot, gen⟩ := emitter_eq_some k.handle
  obtain ⟨-, -, -, -, -, loop⟩ := (modifyForm_iff q).1 k.form
  obtain ⟨-, -, cue, -⟩ := (modifyRanges_iff q).1 k.ranges
  unfold ModifyReq.Gives
  rw [k.values]
  obtain ⟨stopKeep, stopSet, stopRemove⟩ := StopField.change_eq q.stop
  exact ⟨slot, gen, applyPointOf_eq_some k.apply, rfl, rfl, rfl, loop_given loop, stopKeep, stopSet, stopRemove,
    CueField.change_eq cue⟩

/-! ## What has passed (R95 to R97) -/

theorem isLive_iff (e : EmState) : e.isLive = true ↔
    e = .staged ∨ e = .armed ∨ e = .waiting ∨ e = .priming ∨ e = .onAir ∨ e = .paused := by
  cases e <;> simp [EmState.isLive]

theorem NewValues.mem_joins {v : NewValues} {r : Record} {p : Port} :
    p ∈ v.joins r ↔ (v.portsAfter r).getLsbD p.val = true ∧ r.ports.getLsbD p.val = false := by
  simp [NewValues.joins, mem_portsOf]

theorem State.applyAllowed_iff (s : State) (l : Lane) (a : Option ApplyPoint) : s.applyAllowed l a = true ↔
    ∀ t, a = some (.on t) → l = 0 ∨ l = (s.triggers.get t).owner := by
  unfold State.applyAllowed
  split
  · next t => simp [laneMay_iff]
  all_goals simp

theorem FieldChange.value_eq_some {α : Type} {f : FieldChange α} {a : α} : f.value = some a ↔ f = .set a := by
  cases f <;> simp [FieldChange.value]

theorem stopAfterStart_iff (r : Record) (v : NewValues) : stopAfterStart r v = true ↔
    ∀ t u, r.startPoint = some (.at t) → v.stop = .set u → t.toNat < u.toNat := by
  unfold stopAfterStart
  split
  · next t u at_ set => simp [at_, set]
  · next other => exact ⟨fun _ t u at_ set => absurd set (other t u at_), fun _ => rfl⟩

theorem State.modifyPlaced_iff (s : State) (r : Record) (c : Clip) (v : NewValues) : s.modifyPlaced r c v = true ↔
    (∀ a b, v.loop = some (.loop a b) → b ≤ c.length) ∧ (∀ k, v.cue = .set k → k.sample < c.length) ∧
      2 * (v.carrierAfter r).natAbs < c.rate ∧ s.fadesPlaced (v.paths.getD []) = true ∧
      ∀ t u, r.startPoint = some (.at t) → v.stop = .set u → t.toNat < u.toNat := by
  rw [State.modifyPlaced, Bool.and_eq_true, Bool.and_eq_true, Bool.and_eq_true, Bool.and_eq_true, stopAfterStart_iff,
    cueFits_iff, carrierFits, decide_eq_true_iff]
  simp only [FieldChange.value_eq_some, and_assoc]
  cases loop : v.loop with
  | none => simp
  | some m => simp [LoopMode.fits_iff]

theorem State.modifyInTime_iff (s : State) (a : Option ApplyPoint) (v : NewValues) : s.modifyInTime a v = true ↔
    (∀ t, a = some (.at t) → s.now < ticks t) ∧ ∀ u, v.stop = .set u → s.now < ticks u := by
  have stop : s.stopInTime v.stop.value = true ↔ ∀ u, v.stop = .set u → s.now < ticks u := by
    unfold State.stopInTime
    cases v.stop <;> simp [FieldChange.value]
  unfold State.modifyInTime
  rw [Bool.and_eq_true, stop]
  refine and_congr_left' ?_
  split
  all_goals simp

/-- The places and the headroom of the ports of the new port set (R97, steps 9 and 10). -/
theorem State.ModifyChecks.portRoom {s : State} {l : Lane} {q : ModifyReq} {x : ModifyFound} {c : Clip}
    (k : s.ModifyChecks l q x c) (p : Port) (new : (x.values.portsAfter x.record).getLsbD p.val = true) :
    (x.record.ports.getLsbD p.val = false →
      ((s.withdrawChange x.handle).ports.get p).members.length + ((s.withdrawChange x.handle).ports.get p).reservedJoins ≤ 15 ∧
      ((s.withdrawChange x.handle).ports.get p).committed + x.values.weightAfter x.record ≤
        ((s.withdrawChange x.handle).ports.get p).budget) ∧
    (x.record.ports.getLsbD p.val = true → x.record.weight < x.values.weightAfter x.record →
      ((s.withdrawChange x.handle).ports.get p).committed + (x.values.weightAfter x.record - x.record.weight) ≤
        ((s.withdrawChange x.handle).ports.get p).budget) := by
  have room := k.headroom p ((mem_portsOf _ p).2 new)
  rw [Bool.or_eq_true, decide_eq_true_iff] at room
  refine ⟨fun joined => ⟨?_, ?_⟩, fun both more => ?_⟩
  · simpa using k.full p (NewValues.mem_joins.2 ⟨new, joined⟩)
  · simpa only [NewValues.keepsWithin, NewValues.increase, joined, Bool.false_and, Bool.false_eq_true, false_or, if_false]
      using room
  · simpa only [NewValues.keepsWithin, NewValues.increase, both, Bool.true_and, decide_eq_true_eq, not_le.2 more, false_or,
      if_true] using room

theorem State.ModifyChecks.passes {s : State} {l : Lane} {q : ModifyReq} {x : ModifyFound} {c : Clip}
    (k : s.ModifyChecks l q x c) : s.ModifyPasses l q x := by
  obtain ⟨carries, modifiable, known, count, ports, loopKnown⟩ := (modifyForm_iff q).1 k.form
  obtain ⟨paths, loopRanged, -, stopAfter⟩ := (modifyRanges_iff q).1 k.ranges
  have rights := k.rights
  simp only [Bool.and_eq_true, laneMay_iff, State.applyAllowed_iff, List.all_eq_true, Bool.or_eq_true, beq_iff_eq] at rights
  obtain ⟨⟨⟨lane, trigger⟩, fadeLanes⟩, owners⟩ := rights
  obtain ⟨loopFits, cueFits, carrier, fadesPlaced, stopStart⟩ := (s.modifyPlaced_iff _ _ _).1 k.placed
  have fades := (s.fades_iff x.record.lane (x.values.paths.getD [])).1 ⟨k.known, .inr fadeLanes, fadesPlaced⟩
  obtain ⟨applyTime, stopTime⟩ := (s.modifyInTime_iff _ _).1 k.time
  have delays := (delaysFit_iff _ _ _).1 k.delays
  refine ⟨carries, modifiable, count, ports, paths, ?_, ?_, k.record, lane, trigger, ?_, (isLive_iff _).1 k.live,
    ⟨c, k.clip, ?_, loopFits, cueFits, carrier, stopStart, delays⟩, ⟨_, State.withdrawChange_withdrawn k.record, ?_, k.portRoom⟩,
    applyTime, stopTime⟩
  · intro a b loop
    rw [k.values] at loop
    obtain ⟨f, field, mode⟩ := Option.bind_eq_some_iff.1 loop
    exact (LoopField.inRange_iff mode).1 (loopRanged f field) a b rfl
  · intro t u at_ set
    rw [k.values] at set
    obtain ⟨-, e⟩ | ⟨-, e⟩ | ⟨t', field, e⟩ | ⟨b, n, -, -, e⟩ := applyPointOf_eq_some k.apply
    · simp [e] at at_
    · simp [e] at at_
    · rw [e] at at_
      cases at_
      exact stopAfter t u field set
    · simp [e] at at_
  · intro ps given p mem z fade
    exact fades p (by rwa [given]) z fade
  · intro p new joined
    have mem := NewValues.mem_joins.2 ⟨new, joined⟩
    exact ⟨by simpa using k.fitted p mem, by simpa using k.rates p mem, (owners p mem).resolve_left⟩
  · intro ps given
    have pool := k.pool
    simp only [NewValues.extraPaths, given] at pool
    omega

/-! ## The effect (R98 to R101) -/

theorem State.modifyEffect_now {s : State} {x : ModifyFound} (now : x.apply = none) :
    s.modifyEffect x =
      (State.applyValues ((s.modifyRecord x.handle fun r => { r with
          changeCounter := nextChange x.record.changeCounter }).supersede x.handle) x.handle x.values,
        .done (.modified (nextChange x.record.changeCounter) .applied (x.record.staged.map (·.number)))) := by
  unfold State.modifyEffect
  rw [now]

theorem State.modifyEffect_later {s : State} {x : ModifyFound} {a : ApplyPoint} (later : x.apply = some a) {w : State}
    (numbered : (s.modifyRecord x.handle fun r => { r with
      changeCounter := nextChange x.record.changeCounter }).supersede x.handle = w) :
    s.modifyEffect x =
      (w.stageChange x.handle (w.stagedRecord x (nextChange x.record.changeCounter) a),
        .done (.modified (nextChange x.record.changeCounter) .staged (x.record.staged.map (·.number)))) := by
  unfold State.modifyEffect
  rw [later, ← numbered]

/-- The numbering of a change leaves a record, and the clock. -/
theorem State.Numbered.left {s w : State} {h : EmitterHandle} {r : Record} {n : Nat} (k : s.Numbered w h r n) :
    (∃ q, w.recordAt h = some q) ∧ w.sceneTime = s.sceneTime := by
  obtain ⟨-, fresh, superseded⟩ := k
  cases staged : r.staged with
  | none =>
    obtain ⟨record, frame⟩ := fresh staged
    exact ⟨⟨_, record⟩, by rw [frame]⟩
  | some d =>
    obtain ⟨record, -, -, -, -, frame⟩ := superseded d staged
    exact ⟨⟨_, record⟩, by rw [frame]⟩

/-- The claims of a change: a join where the new set adds a port, and an increase where the weight of a kept port grows. -/
theorem NewValues.mem_claims {v : NewValues} {r : Record} {y : PortReservation} : y ∈ v.claims r ↔
    (v.portsAfter r).getLsbD y.port.val = true ∧
      (r.ports.getLsbD y.port.val = false ∧ y.join = true ∧ y.increase = v.weightAfter r ∨
        r.ports.getLsbD y.port.val = true ∧ y.join = false ∧ r.weight < v.weightAfter r ∧
          y.increase = v.weightAfter r - r.weight) := by
  obtain ⟨port, join, increase⟩ := y
  unfold NewValues.claims
  dsimp only
  simp only [List.mem_filterMap, mem_portsOf, Option.ite_none_right_eq_some, Option.some.injEq, PortReservation.mk.injEq]
  unfold NewValues.increase
  constructor
  · rintro ⟨p, new, claims, rfl, rfl, rfl⟩
    refine ⟨new, ?_⟩
    cases both : r.ports.getLsbD p.val with
    | false => simp
    | true =>
      simp only [both, Bool.not_true, Bool.false_or, decide_eq_true_eq, if_true] at claims
      simp only [Bool.not_true, if_true, reduceCtorEq, false_and, true_and, and_true, false_or]
      omega
  · rintro ⟨new, ⟨joined, rfl, rfl⟩ | ⟨both, rfl, more, rfl⟩⟩
    · exact ⟨port, new, by rw [joined]; rfl, rfl, by rw [joined]; rfl, by rw [joined]; rfl⟩
    · refine ⟨port, new, ?_, rfl, by simp [both], by simp [both]⟩
      simp only [both, Bool.not_true, Bool.false_or, decide_eq_true_eq, if_true]
      omega

/-- Where a staged change waits. -/
theorem State.placeChange_spec {s : State} {a : ApplyPoint} (ahead : ∀ t, a = .at t → s.now < ticks t) (h : EmitterHandle)
    (n : Nat) :
    (a = .nextFrame → (s.placeChange h n a).timer = s.timer ++ [⟨.nextFrameApply h n, nextBoundary s.now⟩] ∧
      (s.placeChange h n a).triggers = s.triggers) ∧
    (∀ t, a = .at t → (s.placeChange h n a).timer = s.timer ++ [⟨.atApply h n, ticks t⟩] ∧
      (s.placeChange h n a).triggers = s.triggers) ∧
    (∀ t, a = .on t → (s.placeChange h n a).timer = s.timer ∧
      (∀ k, k ≠ t → (s.placeChange h n a).triggers.get k = s.triggers.get k) ∧
      (s.placeChange h n a).triggers.get t = { s.triggers.get t with applyList := (s.triggers.get t).applyList ++ [h] }) ∧
    s.placeChange h n a = { s with timer := (s.placeChange h n a).timer, triggers := (s.placeChange h n a).triggers } := by
  match a with
  | .nextFrame =>
    have later : ¬ nextBoundary s.now ≤ s.now := not_le.2 (nextBoundary_spec s.now).1
    have placed : s.placeChange h n .nextFrame =
        { s with timer := s.timer ++ [⟨.nextFrameApply h n, nextBoundary s.now⟩] } := State.request_later later
    rw [placed]
    exact ⟨fun _ => ⟨rfl, rfl⟩, nofun, nofun, rfl⟩
  | .at t =>
    have later : ¬ ticks t ≤ s.now := not_le.2 (ahead t rfl)
    have placed : s.placeChange h n (.at t) = { s with timer := s.timer ++ [⟨.atApply h n, ticks t⟩] } :=
      State.request_later later
    rw [placed]
    refine ⟨nofun, ?_, nofun, rfl⟩
    rintro _ ⟨⟩
    exact ⟨rfl, rfl⟩
  | .on t =>
    refine ⟨nofun, nofun, ?_, rfl⟩
    rintro _ ⟨⟩
    exact ⟨rfl, fun k other => Table.get_set_ne _ _ _ _ other, Table.get_set_self ..⟩

/-- Staging: the change stands in the record, is claimed at its ports, and waits at its place. -/
theorem State.stageChange_spec {w : State} {h : EmitterHandle} {r : Record} {c : Change} (e : w.recordAt h = some r)
    (ahead : ∀ t, c.apply = .at t → w.now < ticks t) (apart : (c.portReservations.map (·.port)).Nodup) :
    (w.stageChange h c).recordAt h = some { r with staged := some c } ∧ w.otherEntries (w.stageChange h c) h.slot ∧
    (c.apply = .nextFrame →
      (w.stageChange h c).timer = w.timer ++ [⟨.nextFrameApply h c.number, nextBoundary w.now⟩] ∧
      (w.stageChange h c).triggers = w.triggers) ∧
    (∀ t, c.apply = .at t → (w.stageChange h c).timer = w.timer ++ [⟨.atApply h c.number, ticks t⟩] ∧
      (w.stageChange h c).triggers = w.triggers) ∧
    (∀ t, c.apply = .on t → (w.stageChange h c).timer = w.timer ∧
      (∀ k, k ≠ t → (w.stageChange h c).triggers.get k = w.triggers.get k) ∧
      (w.stageChange h c).triggers.get t =
        { w.triggers.get t with applyList := (w.triggers.get t).applyList ++ [h] }) ∧
    (∀ p, (∀ y ∈ c.portReservations, y.port ≠ p) → (w.stageChange h c).ports.get p = w.ports.get p) ∧
    (∀ y ∈ c.portReservations, (w.stageChange h c).ports.get y.port = (w.ports.get y.port).claim h y.join y.increase) ∧
    w.stageChange h c = { w with
      entries := (w.stageChange h c).entries, ports := (w.stageChange h c).ports, timer := (w.stageChange h c).timer
      triggers := (w.stageChange h c).triggers } := by
  have written : w.modifyRecord h (fun r => { r with staged := some c }) = w.putRecord h.slot { r with staged := some c } :=
    State.modifyRecord_some e
  have record := State.recordAt_putRecord e { r with staged := some c }
  have others := State.putRecord_other w h.slot
  generalize put : w.putRecord h.slot { r with staged := some c } = a at written record
  have putFrame : a = { w with entries := a.entries } := by
    rw [← put]
    rfl
  obtain ⟨unclaimed, claimed⟩ := State.claimPorts_spec h c.portReservations apart a
  have claimFrame := State.claimPorts_frame a h c.portReservations
  generalize claim : a.claimPorts h c.portReservations = b at unclaimed claimed claimFrame
  have now : b.now = w.now := by
    rw [claimFrame, putFrame]
    rfl
  obtain ⟨nextFrame, atTime, onTrigger, placeFrame⟩ :=
    State.placeChange_spec (s := b) (a := c.apply) (fun t at_ => now ▸ ahead t at_) h c.number
  have staged : w.stageChange h c = b.placeChange h c.number c.apply := by
    dsimp only [State.stageChange]
    rw [written, claim]
  rw [staged]
  generalize b.placeChange h c.number c.apply = u at nextFrame atTime onTrigger placeFrame
  have entries : u.entries = a.entries := by rw [placeFrame, claimFrame]
  have ports : u.ports = b.ports := by rw [placeFrame]
  have timer : b.timer = w.timer := by rw [claimFrame, putFrame]
  have triggers : b.triggers = w.triggers := by rw [claimFrame, putFrame]
  have oldPorts : a.ports = w.ports := by rw [putFrame]
  rw [now, timer, triggers] at nextFrame
  rw [timer, triggers] at atTime onTrigger
  rw [oldPorts] at unclaimed claimed
  refine ⟨?_, fun k other => ?_, nextFrame, atTime, onTrigger, ?_, ?_, ?_⟩
  · rw [State.recordAt, entries]
    exact record
  · rw [entries, ← put]
    exact others k _ other
  · rw [ports]
    exact unclaimed
  · rw [ports]
    exact claimed
  · rw [placeFrame, claimFrame, putFrame]

/-! ## The slot under a new loop (R82) -/

theorem keptWindow_spec {m : LoopMode} {len : Nat} {order : Nat → Nat} (plays : ∀ i, order (i + 1) = m.after len (order i))
    (window : List WindowSample) :
    ∃ k, k ≤ window.length ∧ keptWindow m len (order 0) window = (window.take k, order k) ∧
      (∀ i w, i < k → window[i]? = some w → w.pos = order i) ∧ ∀ w, window[k]? = some w → w.pos ≠ order k := by
  induction window generalizing order with
  | nil => exact ⟨0, le_rfl, rfl, nofun, nofun⟩
  | cons w ws ih =>
    by_cases next : w.pos = order 0
    · obtain ⟨k, few, kept, inOrder, stops⟩ := ih (order := fun i => order (i + 1)) fun i => plays (i + 1)
      refine ⟨k + 1, Nat.succ_le_succ few, ?_, fun i y lt given => ?_, fun y given => stops y given⟩
      · rw [keptWindow, if_pos next, ← plays 0, kept]
        rfl
      · cases i with
        | zero =>
          cases given
          exact next
        | succ i => exact inOrder i y (Nat.lt_of_succ_lt_succ lt) given
    · refine ⟨0, Nat.zero_le _, ?_, nofun, ?_⟩
      · rw [keptWindow, if_neg next]
        rfl
      · rintro y ⟨⟩
        exact next

/-- The words of R82 for the order in which a record's samples are played. -/
theorem order_plays {r : Record} {len : Nat} {order : Nat → Nat}
    (once : r.loop = .once → order 0 = r.playPosition ∧ ∀ i, order (i + 1) = order i + 1)
    (loop : ∀ a b, r.loop = .loop a b → order 0 = (if len ≤ r.playPosition then a else r.playPosition) ∧
      ∀ i, order (i + 1) = if order i + 1 = b ∨ len ≤ order i + 1 then a else order i + 1) :
    order 0 = r.loop.resumeAt len r.playPosition ∧ ∀ i, order (i + 1) = r.loop.after len (order i) := by
  cases mode : r.loop with
  | once => exact once mode
  | loop a b => exact loop a b mode

theorem Run.isNext_iff (z : Run) (m : LoopMode) (len p : Nat) :
    z.isNext m len p = true ↔ z.start = p ∧ z.start + z.len ≤ m.seqEnd len p := by
  simp [Run.isNext]

theorem reorder_fetch (x : StreamSlot) (r : Record) (len : Nat) :
    (x.reorder r len).fetch = x.fetch.map fun f =>
      if f.run.start = (x.reorder r len).nextPos ∧ f.run.start + f.run.len ≤ r.loop.seqEnd len (x.reorder r len).nextPos then f
      else { f with discarded := true } := by
  have discards : (x.reorder r len).fetch = x.fetch.map fun f =>
      { f with discarded := f.discarded || !f.run.isNext r.loop len (x.reorder r len).nextPos } := rfl
  rw [discards]
  refine congrArg (fun g => x.fetch.map g) (funext fun f => ?_)
  by_cases next : f.run.isNext r.loop len (x.reorder r len).nextPos = true
  · rw [if_pos ((Run.isNext_iff ..).1 next), next]
    simp
  · rw [if_neg (mt (Run.isNext_iff ..).2 next), Bool.eq_false_iff.2 next]
    simp

theorem reorder_fetchState (x : StreamSlot) (r : Record) (len : Nat) :
    (x.reorder r len).fetchState =
      if x.failed.isSome = true ∧ (x.reorder r len).failed = none then .running else x.fetchState := by
  unfold StreamSlot.reorder
  extract_lets k keepsRun lostFailed
  dsimp only
  refine if_congr ?_ rfl rfl
  cases failed : x.failed with
  | none => simp [lostFailed, failed]
  | some run => simp [lostFailed, failed, Option.filter]

theorem reorder_spec (x : StreamSlot) (r : Record) (len : Nat) (order : Nat → Nat)
    (once : r.loop = .once → order 0 = r.playPosition ∧ ∀ i, order (i + 1) = order i + 1)
    (loop : ∀ a b, r.loop = .loop a b → order 0 = (if len ≤ r.playPosition then a else r.playPosition) ∧
      ∀ i, order (i + 1) = if order i + 1 = b ∨ len ≤ order i + 1 then a else order i + 1) :
    ∃ m stop, m ≤ x.window.length ∧ (x.reorder r len).window = x.window.take m ∧ (x.reorder r len).nextPos = order m ∧
      (∀ i w, i < m → x.window[i]? = some w → w.pos = order i) ∧ (∀ w, x.window[m]? = some w → w.pos ≠ order m) ∧
      (r.loop = .once → stop = len) ∧
      (∀ a b, r.loop = .loop a b → (order m < b → stop = b) ∧ (b ≤ order m → stop = len)) ∧
      (x.reorder r len).fetch = x.fetch.map (fun f =>
        if f.run.start = order m ∧ f.run.start + f.run.len ≤ stop then f else { f with discarded := true }) ∧
      (x.reorder r len).failed = x.failed.filter (fun z => z.start == order m && decide (z.start + z.len ≤ stop)) ∧
      (x.reorder r len).fetchState =
        if x.failed.isSome = true ∧ (x.reorder r len).failed = none then .running else x.fetchState := by
  obtain ⟨start, plays⟩ := order_plays once loop
  obtain ⟨m, few, kept, inOrder, stops⟩ := keptWindow_spec plays x.window
  rw [start] at kept
  have window : (x.reorder r len).window = x.window.take m := congrArg Prod.fst kept
  have position : (x.reorder r len).nextPos = order m := congrArg Prod.snd kept
  refine ⟨m, r.loop.seqEnd len (order m), few, window, position, inOrder, stops, ?_, ?_, ?_, ?_, ?_⟩
  · intro mode
    rw [mode]
    rfl
  · intro a b mode
    rw [mode]
    exact ⟨fun before => if_pos before, fun past => if_neg (not_lt.2 past)⟩
  · rw [reorder_fetch, position]
  · rw [← position]
    rfl
  · exact reorder_fetchState x r len

/-- The tail that a slot keeps across a change of the loop: the one that plays, or the one that was set aside. -/
def StreamSlot.keptTail (x : StreamSlot) : Option (Nat × Bool) :=
  match x.tail with
  | some t => some (t, x.endFound)
  | none => x.heldTail

theorem keptTail_playing {x : StreamSlot} {t : Nat} (tail : x.tail = some t) : x.keptTail = some (t, x.endFound) := by
  rw [StreamSlot.keptTail, tail]

theorem keptTail_aside {x : StreamSlot} (tail : x.tail = none) : x.keptTail = x.heldTail := by
  rw [StreamSlot.keptTail, tail]

theorem reorder_tail (x : StreamSlot) (r : Record) (len : Nat) :
    (x.reorder r len).tail = (if r.loop = .once ∧ len ≤ r.playPosition then x.keptTail.map (·.1) else none) ∧
    (x.reorder r len).endFound =
      (if r.loop = .once ∧ len ≤ r.playPosition then (x.keptTail.map (·.2)).getD false else false) ∧
    (x.reorder r len).heldTail = if r.loop = .once then none else x.keptTail := ⟨rfl, rfl, rfl⟩

/-- What becomes of the tail under a new loop (R32, R82). -/
theorem reorder_tails (x : StreamSlot) (r : Record) (len : Nat) :
    (r.loop ≠ .once ∨ r.playPosition < len → (x.reorder r len).tail = none ∧ (x.reorder r len).endFound = false) ∧
    (r.loop = .once → (x.reorder r len).heldTail = none) ∧
    (∀ t e, x.keptTail = some (t, e) → (r.loop ≠ .once → (x.reorder r len).heldTail = some (t, e)) ∧
      (r.loop = .once → len ≤ r.playPosition → (x.reorder r len).tail = some t ∧ (x.reorder r len).endFound = e)) ∧
    (x.keptTail = none →
      (x.reorder r len).heldTail = none ∧ (x.reorder r len).tail = none ∧ (x.reorder r len).endFound = false) := by
  obtain ⟨tail, found, held⟩ := reorder_tail x r len
  rw [tail, found, held]
  refine ⟨fun leaves => ?_, fun mode => if_pos mode, fun t e kept => ⟨fun mode => ?_, fun mode past => ?_⟩, fun none => ?_⟩
  · have no : ¬ (r.loop = .once ∧ len ≤ r.playPosition) := by
      rintro ⟨mode, past⟩
      obtain other | before := leaves
      · exact other mode
      · omega
    exact ⟨if_neg no, if_neg no⟩
  · rw [if_neg mode, kept]
  · rw [if_pos ⟨mode, past⟩, if_pos ⟨mode, past⟩, kept]
    exact ⟨rfl, rfl⟩
  · simp [none]

/-- Settles O25: the checks taken apart; the effect of an apply at once by the numbering and the apply, that of a staging by the
numbering, the claims and the place where the change waits; the new order by induction over the window. -/
theorem modifyAppliesOrStages : Obligations.ModifyAppliesOrStages := by
  refine ⟨?_, ?_, ?_, ?_⟩
  · intro s l q x ok
    obtain ⟨c, checks⟩ := State.checkModify_checks ok
    exact ⟨checks.gives, checks.passes⟩
  · intro s l q x handed ok now
    have record := (State.checkModify_ok ok).1
    have numbered := State.numbered_spec record (nextChange x.record.changeCounter)
    obtain ⟨⟨r, left⟩, -⟩ := numbered.left
    refine ⟨record, _, _, r, nextChange x.record.changeCounter, ?_, rfl, numbered, left, State.applyValues_spec left x.values⟩
    rw [exec_accepted (exec_modify_handed handed) ok, State.modifyEffect_now now]
    rfl
  · intro s l q x a handed ok later
    obtain ⟨record, ahead⟩ := State.checkModify_ok ok
    have numbered := State.numbered_spec record (nextChange x.record.changeCounter)
    generalize number : (s.modifyRecord x.handle fun r => { r with
      changeCounter := nextChange x.record.changeCounter }).supersede x.handle = w at numbered
    obtain ⟨⟨r, left⟩, scene⟩ := numbered.left
    have now : w.now = s.now := congrArg (fun t : BitVec 64 => (t.toNat : Int)) scene
    obtain ⟨staged, others, nextFrame, atTime, onTrigger, unclaimed, claimed, frame⟩ :=
      State.stageChange_spec (c := w.stagedRecord x (nextChange x.record.changeCounter) a) left
        (fun t at_ => now ▸ ahead t (later.trans (congrArg some at_))) (NewValues.claims_nodup _ _)
    refine ⟨record, w, w.stageChange x.handle (w.stagedRecord x (nextChange x.record.changeCounter) a), r,
      w.stagedRecord x (nextChange x.record.changeCounter) a, ?_, numbered, left, rfl, rfl, scene, rfl, rfl, rfl,
      fun y => NewValues.mem_claims, staged, others, fun is => ?_, atTime, onTrigger, unclaimed, claimed, frame⟩
    · rw [exec_accepted (exec_modify_handed handed) ok, State.modifyEffect_later later number]
      rfl
    · rw [← now]
      exact nextFrame is
  · rintro x y r len order rfl once loop
    obtain ⟨m, stop, few, window, position, inOrder, stops, endOnce, endLoop, fetch, failed, state⟩ :=
      reorder_spec x r len order once loop
    obtain ⟨leaves, unheld, kept, none⟩ := reorder_tails x r len
    exact ⟨m, stop, few, window, position, inOrder, stops, endOnce, endLoop, fetch, failed, state, leaves, unheld,
      fun t tail => kept t _ (keptTail_playing tail),
      fun t e tail held => kept t e ((keptTail_aside tail).trans held),
      fun tail held => none ((keptTail_aside tail).trans held), rfl⟩

end Sys2Proof.Machine
end

section
/-!
SUPPORT. The flush of entries (R123 to R125): what leaves with the handles that are flushed and what stays, over the whole table.
-/

namespace Sys2Proof.Machine

/-! ## Lists that records leave -/

/-- From `xs` to `ys` only items of `F` have left, and nothing has come. -/
def LeftBy {α : Type} (F : α → Prop) (xs ys : List α) : Prop := (∀ x ∈ ys, x ∈ xs) ∧ ∀ x ∈ xs, ¬ F x → x ∈ ys

namespace LeftBy

variable {α : Type} {F G : α → Prop} {xs ys zs : List α}

theorem refl (F : α → Prop) (xs : List α) : LeftBy F xs xs := ⟨fun _ => id, fun _ mem _ => mem⟩

theorem trans (a : LeftBy F xs ys) (b : LeftBy F ys zs) : LeftBy F xs zs :=
  ⟨fun x mem => a.1 x (b.1 x mem), fun x mem stays => b.2 x (a.2 x mem stays) stays⟩

theorem mono (a : LeftBy F xs ys) (h : ∀ x, F x → G x) : LeftBy G xs ys :=
  ⟨a.1, fun x mem stays => a.2 x mem fun leaves => stays (h x leaves)⟩

theorem filter (xs : List α) {p : α → Bool} (h : ∀ x, p x = false → F x) : LeftBy F xs (xs.filter p) :=
  ⟨fun _ mem => (List.mem_filter.1 mem).1, fun x mem stays =>
    List.mem_filter.2 ⟨mem, Bool.not_eq_false _ ▸ fun no => stays (h x no)⟩⟩

theorem mem_iff (a : LeftBy F xs ys) {x : α} (stays : ¬ F x) : x ∈ ys ↔ x ∈ xs := ⟨a.1 x, fun mem => a.2 x mem stays⟩

theorem ite (xs : List α) {p : α → Bool} (h : ∀ x, p x = false → F x) (b : Bool) :
    LeftBy F xs (if b then xs.filter p else xs) := by
  split
  · exact filter xs h
  · exact refl F xs

end LeftBy

/-! ## What a flush may change -/

/-- An expiry that goes with one of the handles of `F`: a start, a stop or an AT apply point of it. -/
def PendingExpiry.goesWith (F : EmitterHandle → Prop) (x : PendingExpiry) : Prop :=
  ∃ h, F h ∧ (x.kind.isStartOrStopOf h = true ∨ ∃ n, x.kind = .atApply h n)

/-- From `s` to `u` the handles of `F` may have left the lists, the timer, the slots and the ports; every other handle stands as
it did. Of the units only CLIP_ATTENTION has changed, and it only sets. -/
structure State.Shed (F : EmitterHandle → Prop) (s u : State) : Prop where
  spentList : LeftBy F s.spentList u.spentList
  armSet : LeftBy F s.armSet u.armSet
  grantQueue : LeftBy F s.grantQueue u.grantQueue
  timer : LeftBy (PendingExpiry.goesWith F) s.timer u.timer
  armList : ∀ t, LeftBy F (s.triggers.get t).armList (u.triggers.get t).armList
  applyList : ∀ t, LeftBy F (s.triggers.get t).applyList (u.triggers.get t).applyList
  trigger : ∀ t, u.triggers.get t = { s.triggers.get t with
    armList := (u.triggers.get t).armList, applyList := (u.triggers.get t).applyList }
  members : ∀ p, LeftBy (fun m => F m.handle) (s.ports.get p).members (u.ports.get p).members
  reservations : ∀ p, LeftBy (fun m => F m.handle) (s.ports.get p).reservations (u.ports.get p).reservations
  port : ∀ p, u.ports.get p = { s.ports.get p with
    members := (u.ports.get p).members, reservations := (u.ports.get p).reservations }
  slots : ∀ n, u.slots.get n = s.slots.get n ∨ u.slots.get n = .free ∧ ∃ h, (s.slots.get n).owner = some h ∧ F h
  unit : ∀ l, u.units.get l = { s.units.get l with summary := (u.units.get l).summary } ∧
    (u.units.get l).summary ||| Cause.clipAttention.bit = (s.units.get l).summary ||| Cause.clipAttention.bit
  stand : s.CausesStand u
  frame : u = { s with
    entries := u.entries, spentList := u.spentList, armSet := u.armSet, grantQueue := u.grantQueue, timer := u.timer
    triggers := u.triggers, slots := u.slots, strayReads := u.strayReads, ports := u.ports, clips := u.clips
    units := u.units, sent := u.sent }

namespace State.Shed

variable {F G : EmitterHandle → Prop} {s t u : State}

theorem refl (F : EmitterHandle → Prop) (s : State) : s.Shed F s where
  spentList := .refl _ _
  armSet := .refl _ _
  grantQueue := .refl _ _
  timer := .refl _ _
  armList _ := .refl _ _
  applyList _ := .refl _ _
  trigger _ := rfl
  members _ := .refl _ _
  reservations _ := .refl _ _
  port _ := rfl
  slots _ := .inl rfl
  unit _ := ⟨rfl, rfl⟩
  stand := .refl s
  frame := rfl

theorem trans (a : s.Shed F t) (b : t.Shed F u) : s.Shed F u where
  spentList := a.spentList.trans b.spentList
  armSet := a.armSet.trans b.armSet
  grantQueue := a.grantQueue.trans b.grantQueue
  timer := a.timer.trans b.timer
  armList x := (a.armList x).trans (b.armList x)
  applyList x := (a.applyList x).trans (b.applyList x)
  trigger x := (b.trigger x).trans (by rw [a.trigger x])
  members p := (a.members p).trans (b.members p)
  reservations p := (a.reservations p).trans (b.reservations p)
  port p := (b.port p).trans (by rw [a.port p])
  slots n := by
    obtain second | ⟨free, h, owner, leaves⟩ := b.slots n
    · rw [second]
      exact a.slots n
    · obtain first | ⟨freed, -⟩ := a.slots n
      · exact .inr ⟨free, h, first ▸ owner, leaves⟩
      · rw [freed] at owner
        cases owner
  unit l := by
    obtain ⟨eq, bits⟩ := a.unit l
    obtain ⟨eq', bits'⟩ := b.unit l
    exact ⟨eq'.trans (by rw [eq]), bits'.trans bits⟩
  stand := a.stand.trans b.stand
  frame := b.frame.trans (by rw [a.frame])

theorem mono (a : s.Shed F t) (h : ∀ x, F x → G x) : s.Shed G t where
  spentList := a.spentList.mono h
  armSet := a.armSet.mono h
  grantQueue := a.grantQueue.mono h
  timer := a.timer.mono fun _ ⟨k, leaves, kind⟩ => ⟨k, h k leaves, kind⟩
  armList x := (a.armList x).mono h
  applyList x := (a.applyList x).mono h
  trigger := a.trigger
  members p := (a.members p).mono fun m => h m.handle
  reservations p := (a.reservations p).mono fun m => h m.handle
  port := a.port
  slots n := (a.slots n).imp_right fun ⟨free, k, owner, leaves⟩ => ⟨free, k, owner, h k leaves⟩
  unit := a.unit
  stand := a.stand
  frame := a.frame

/-- The slot of a handle that stays is the same. -/
theorem slotOf (a : s.Shed F t) {h : EmitterHandle} (stays : ¬ F h) : t.slotOf h = s.slotOf h := by
  have same (n : SlotNo) : ((t.slots.get n).owner == some h) = ((s.slots.get n).owner == some h) := by
    obtain eq | ⟨free, k, owner, leaves⟩ := a.slots n
    · rw [eq]
    · have other : k ≠ h := fun eq => stays (eq ▸ leaves)
      rw [free, owner]
      simp [StreamSlot.free, other]
  unfold State.slotOf
  simp only [same]

end State.Shed

/-! ## The flush of one entry -/

theorem Record.appliesAt_kind {r : Record} {h : EmitterHandle} {e : Expiry} (applies : r.appliesAt h e = true) :
    ∃ n, e = .atApply h n := by
  unfold Record.appliesAt at applies
  split at applies
  · split at applies
    · exact ⟨_, eq_of_beq applies⟩
    · cases applies
    · cases applies
  · cases applies

theorem Record.appliesAt_false {r : Record} {h : EmitterHandle} {c : Change} {time : BitVec 64} (staged : r.staged = some c)
    (apply : c.apply = .at time) {e : Expiry} (no : r.appliesAt h e = false) : e ≠ .atApply h c.number := by
  simpa [Record.appliesAt, staged, apply] using no

theorem PortRec.leftBy_members {a : PortRec} {h : EmitterHandle} {r : Record} {p : Port} (bit : r.ports.getLsbD p.val = true)
    {m : Member} (mem : m ∈ (a.leftBy h r p).members) : m.handle ≠ h := by
  simp only [PortRec.leftBy, bit, if_true, List.mem_filter] at mem
  simpa using mem.2

theorem PortRec.leftBy_reservations {a : PortRec} {h : EmitterHandle} {r : Record} {c : Change} (staged : r.staged = some c)
    {y : PortReservation} (reserves : y ∈ c.portReservations) {z : Reservation}
    (claim : z ∈ (a.leftBy h r y.port).reservations) : z.handle ≠ h := by
  have own : r.reservesAt y.port = true := by
    simp only [Record.reservesAt, staged, List.any_eq_true]
    exact ⟨y, reserves, by simp⟩
  simp only [PortRec.leftBy, own, if_true, List.mem_filter] at claim
  simpa using claim.2

theorem TriggerRec.leftBy_applyList {x : TriggerRec} {h : EmitterHandle} {r : Record} {c : Change} {t : Trigger}
    (staged : r.staged = some c) (apply : c.apply = .on t) : h ∉ (x.leftBy h r t).applyList := by
  have waits : r.appliesOn t = true := by simp [Record.appliesOn, staged, apply]
  simp [TriggerRec.leftBy, waits]

/-- CLIP_ATTENTION apart, the causes of a unit are as they were. -/
theorem State.setClipAttention_unit (s : State) (k l : Lane) :
    (s.setCause k .clipAttention).units.get l = { s.units.get l with
        summary := ((s.setCause k .clipAttention).units.get l).summary } ∧
      ((s.setCause k .clipAttention).units.get l).summary ||| Cause.clipAttention.bit =
        (s.units.get l).summary ||| Cause.clipAttention.bit := by
  rw [State.setCause_units, Table.get_set]
  split
  · rename_i same
    subst same
    exact ⟨rfl, by rw [BitVec.or_assoc, BitVec.or_self]⟩
  · exact ⟨rfl, rfl⟩

theorem State.releaseReference_unit (s : State) (c : ClipHandle) :
    (∀ l, (s.releaseReference c).units.get l = { s.units.get l with summary := ((s.releaseReference c).units.get l).summary } ∧
      ((s.releaseReference c).units.get l).summary ||| Cause.clipAttention.bit =
        (s.units.get l).summary ||| Cause.clipAttention.bit) ∧
      s.CausesStand (s.releaseReference c) := by
  cases clip : s.clipAt c with
  | none =>
    rw [State.releaseReference_gone clip]
    exact ⟨fun l => ⟨rfl, rfl⟩, .refl s⟩
  | some x =>
    by_cases stays : 1 < x.refs ∨ x.state ≠ .draining
    · rw [State.releaseReference_counts clip stays]
      exact ⟨fun l => ⟨rfl, rfl⟩, .of_units rfl⟩
    · simp only [not_or, Nat.not_lt, not_not] at stays
      rw [State.releaseReference_drains clip stays.1 stays.2]
      generalize hv : s.setClip c.slot { s.clips.get c.slot with clip := none, note := some (x.drainedNote c) } = v
      have units : v.units = s.units := by rw [← hv]; rfl
      refine ⟨fun l => ?_, State.CausesStand.trans (.of_units units) (.setCause v _ _)⟩
      rw [← units]
      exact v.setClipAttention_unit _ l

section
variable {s : State} {h : EmitterHandle} {r : Record} (e : s.recordAt h = some r)
include e

theorem State.flushEntry_entries :
    (s.flushEntry h).entries = s.entries.set h.slot { s.entries.get h.slot with record := none } := by
  by_cases spent : r.state = .spent
  · rw [State.flushEntry, State.releaseHoldings_spent e spent]
    rfl
  · show (s.releaseHoldings h).entries.set h.slot { (s.releaseHoldings h).entries.get h.slot with record := none } = _
    rw [State.releaseHoldings_entries e (isHolding_of_ne_spent spent), Table.get_set_self, Table.set_set]

theorem State.releaseHoldings_shed : s.Shed (· = h) (s.releaseHoldings h) := by
  by_cases spent : r.state = .spent
  · rw [State.releaseHoldings_spent e spent]
    exact .refl _ s
  have k := isHolding_of_ne_spent spent
  have own {α : Type} (f : α → EmitterHandle) (x : α) : (f x != h) = false → f x = h := by simp
  refine
    { spentList := by rw [State.releaseHoldings_frame]; exact .refl _ _
      armSet := by rw [State.releaseHoldings_armSet e k]; exact .filter _ (own id)
      grantQueue := by rw [State.releaseHoldings_grantQueue e k]; exact .filter _ (own id)
      timer := ?_
      armList := fun t => by rw [State.releaseHoldings_trigger e k]; exact .filter _ (own id)
      applyList := fun t => by rw [State.releaseHoldings_trigger e k]; exact .ite _ (own id) _
      trigger := fun t => by rw [State.releaseHoldings_trigger e k]; rfl
      members := fun p => by rw [State.releaseHoldings_port e k]; exact .ite _ (own Member.handle) _
      reservations := fun p => by rw [State.releaseHoldings_port e k]; exact .ite _ (own Reservation.handle) _
      port := fun p => by rw [State.releaseHoldings_port e k]; rfl
      slots := ?_
      unit := ?_
      stand := ?_
      frame := ?_ }
  · rw [State.releaseHoldings_timer e k]
    refine .filter _ fun x leaves => ⟨h, rfl, ?_⟩
    rw [Bool.not_eq_false', Bool.or_eq_true] at leaves
    exact leaves.imp_right Record.appliesAt_kind
  · intro n
    rw [(State.releaseHoldings_slots e k).1]
    cases slot : s.slotOf h with
    | none => exact .inl (by rw [State.releaseSlot_none slot])
    | some m =>
      rw [State.releaseSlot_some slot, Table.get_set]
      split
      · rename_i same
        subst same
        exact .inr ⟨rfl, h, State.slotOf_owner slot, rfl⟩
      · exact .inl rfl
  · intro l
    rw [(State.releaseHoldings_clips e k).2.1]
    exact (s.releaseReference_unit r.clip).1 l
  · intro l b
    rw [(State.releaseHoldings_clips e k).2.1]
    exact (s.releaseReference_unit r.clip).2 l b
  · rw [State.releaseHoldings_frame]

theorem State.flushEntry_shed : s.Shed (· = h) (s.flushEntry h) := by
  refine (State.releaseHoldings_shed e).trans ?_
  exact { State.Shed.refl _ (s.releaseHoldings h) with spentList := .filter _ fun x => by simp, frame := rfl }

end

/-! ## What a flushed record held -/

/-- What the record `r` of handle `h` held in the state `s` has been given back in the state `u`. -/
def State.GaveBack (s u : State) (h : EmitterHandle) (r : Record) : Prop :=
  h ∉ u.spentList ∧ (r.state ≠ .spent →
    h ∉ u.armSet ∧ h ∉ u.grantQueue ∧ (∀ k, h ∉ (u.triggers.get k).armList) ∧
    (∀ x ∈ u.timer, x.kind.isStartOrStopOf h = false) ∧ (∀ n, s.slotOf h = some n → u.slots.get n = .free) ∧
    (∀ p, r.ports.getLsbD p.val = true → ∀ m ∈ (u.ports.get p).members, m.handle ≠ h) ∧
    ∀ c, r.staged = some c → (∀ y ∈ c.portReservations, ∀ z ∈ (u.ports.get y.port).reservations, z.handle ≠ h) ∧
      (∀ k, c.apply = .on k → h ∉ (u.triggers.get k).applyList) ∧
      (∀ time, c.apply = .at time → ∀ x ∈ u.timer, x.kind ≠ .atApply h c.number))

/-- What has been given back stays so while others leave. -/
theorem State.GaveBack.shed {s t u : State} {h : EmitterHandle} {r : Record} {F : EmitterHandle → Prop}
    (a : s.GaveBack t h r) (b : t.Shed F u) : s.GaveBack u h r := by
  obtain ⟨spent, held⟩ := a
  refine ⟨fun mem => spent (b.spentList.1 h mem), fun goes => ?_⟩
  obtain ⟨armSet, queue, arms, timer, slot, members, staged⟩ := held goes
  refine ⟨fun mem => armSet (b.armSet.1 h mem), fun mem => queue (b.grantQueue.1 h mem),
    fun k mem => arms k ((b.armList k).1 h mem), fun x mem => timer x (b.timer.1 x mem), fun n named => ?_,
    fun p bit m mem => members p bit m ((b.members p).1 m mem), fun c change => ?_⟩
  · obtain same | ⟨free, -⟩ := b.slots n
    · rw [same]
      exact slot n named
    · exact free
  · obtain ⟨reserved, applies, at_⟩ := staged c change
    exact ⟨fun y mem z claim => reserved y mem z ((b.reservations y.port).1 z claim),
      fun k apply mem => applies k apply ((b.applyList k).1 h mem),
      fun time apply x mem => at_ time apply x (b.timer.1 x mem)⟩

/-- The flush of an entry gives back what its record held. -/
theorem State.flushEntry_gaveBack {s : State} {h : EmitterHandle} {r : Record} (e : s.recordAt h = some r) :
    s.GaveBack (s.flushEntry h) h r := by
  refine ⟨not_mem_filter_ne _ _, fun goes => ?_⟩
  have k := isHolding_of_ne_spent goes
  have armSet : (s.flushEntry h).armSet = s.armSet.filter fun k => k != h := State.releaseHoldings_armSet e k
  have queue : (s.flushEntry h).grantQueue = s.grantQueue.filter fun k => k != h := State.releaseHoldings_grantQueue e k
  have timer : (s.flushEntry h).timer = s.timer.filter fun x => !(x.kind.isStartOrStopOf h || r.appliesAt h x.kind) :=
    State.releaseHoldings_timer e k
  have trigger (t : Trigger) : (s.flushEntry h).triggers.get t = (s.triggers.get t).leftBy h r t :=
    State.releaseHoldings_trigger e k t
  have port (p : Port) : (s.flushEntry h).ports.get p = (s.ports.get p).leftBy h r p := State.releaseHoldings_port e k p
  have slots : (s.flushEntry h).slots = (s.releaseSlot h).slots := (State.releaseHoldings_slots e k).1
  have pending {x : PendingExpiry} (mem : x ∈ (s.flushEntry h).timer) :
      x.kind.isStartOrStopOf h = false ∧ r.appliesAt h x.kind = false := by
    rw [timer] at mem
    simpa using (List.mem_filter.1 mem).2
  refine ⟨armSet ▸ not_mem_filter_ne _ _, queue ▸ not_mem_filter_ne _ _, fun t => ?_, fun x mem => (pending mem).1,
    fun n slot => ?_, fun p bit m mem => ?_, fun c staged => ⟨fun y mem z claim => ?_, fun t apply => ?_,
    fun time apply x mem => ?_⟩⟩
  · rw [trigger]
    exact not_mem_filter_ne _ _
  · rw [slots, State.releaseSlot_some slot]
    exact Table.get_set_self ..
  · rw [port] at mem
    exact PortRec.leftBy_members bit mem
  · rw [port] at claim
    exact PortRec.leftBy_reservations staged mem claim
  · rw [trigger]
    exact TriggerRec.leftBy_applyList staged apply
  · exact Record.appliesAt_false staged apply (pending mem).2

/-- The giving back that is said of a later state, whose slots still name the same one for the handle. -/
theorem State.GaveBack.of_slotOf {s t u : State} {h : EmitterHandle} {r : Record} (a : t.GaveBack u h r)
    (same : t.slotOf h = s.slotOf h) : s.GaveBack u h r := by
  unfold State.GaveBack at a ⊢
  rwa [same] at a

/-! ## The flush of the table -/

/-- One entry of a flush. -/
def State.flushStep (sel : Record → Bool) (s : State) (i : EntryNo) : State :=
  match (s.entries.get i).record, s.handleAt i with
  | some r, some h => if sel r then s.flushEntry h else s
  | _, _ => s

theorem State.flushWhere_eq (s : State) (sel : Record → Bool) :
    s.flushWhere sel = (List.finRange 96).foldl (State.flushStep sel) s := rfl

/-- The handle of the record in an entry. -/
def State.handleOf (s : State) (i : EntryNo) : EmitterHandle := ⟨i, (s.entries.get i).gen⟩

theorem State.recordAt_handleOf {s : State} {i : EntryNo} {r : Record} (e : (s.entries.get i).record = some r) :
    s.recordAt (s.handleOf i) = some r := by simp [State.recordAt, State.handleOf, e]

theorem State.flushStep_selected {sel : Record → Bool} {s : State} {i : EntryNo} {r : Record}
    (e : (s.entries.get i).record = some r) (chosen : sel r = true) : s.flushStep sel i = s.flushEntry (s.handleOf i) := by
  simp [State.flushStep, State.handleAt, e, chosen, State.handleOf]

theorem State.flushStep_left {sel : Record → Bool} {s : State} {i : EntryNo}
    (other : ∀ r, (s.entries.get i).record = some r → sel r = false) : s.flushStep sel i = s := by
  unfold State.flushStep
  split
  · rename_i r h e _
    rw [other r e]
    rfl
  · rfl

/-- A step flushes its entry or leaves the state. -/
theorem State.flushStep_cases (sel : Record → Bool) (s : State) (i : EntryNo) :
    (∃ r, (s.entries.get i).record = some r ∧ sel r = true ∧ s.flushStep sel i = s.flushEntry (s.handleOf i)) ∨
      ((∀ r, (s.entries.get i).record = some r → sel r = false) ∧ s.flushStep sel i = s) := by
  by_cases chosen : ∃ r, (s.entries.get i).record = some r ∧ sel r = true
  · obtain ⟨r, e, yes⟩ := chosen
    exact .inl ⟨r, e, yes, State.flushStep_selected e yes⟩
  · have other : ∀ r, (s.entries.get i).record = some r → sel r = false :=
      fun r e => Bool.eq_false_iff.2 fun yes => chosen ⟨r, e, yes⟩
    exact .inr ⟨other, State.flushStep_left other⟩

/-- The entry with its record gone, where that is selected. -/
def Entry.flushed (sel : Record → Bool) (e : Entry) : Entry :=
  { e with record := e.record.filter fun r => !sel r }

theorem State.flushStep_entries (sel : Record → Bool) (s : State) (i j : EntryNo) :
    (s.flushStep sel i).entries.get j = if j = i then (s.entries.get i).flushed sel else s.entries.get j := by
  obtain ⟨r, e, chosen, step⟩ | ⟨other, step⟩ := s.flushStep_cases sel i
  · rw [step, State.flushEntry_entries (State.recordAt_handleOf e), Table.get_set]
    simp only [State.handleOf, Entry.flushed, Option.filter, e, chosen, Bool.not_true]
    rfl
  · rw [step]
    split
    · rename_i same
      subst same
      have stays : (s.entries.get j).record.filter (fun r => !sel r) = (s.entries.get j).record := by
        cases record : (s.entries.get j).record with
        | none => rfl
        | some r => simp [Option.filter, other r record]
      simp only [Entry.flushed, stays]
    · rfl

/-- The handles that a flush of the given entries takes. -/
def State.takenBy (s : State) (sel : Record → Bool) (entries : List EntryNo) (h : EmitterHandle) : Prop :=
  h.slot ∈ entries ∧ ∃ r, s.recordAt h = some r ∧ sel r = true

theorem State.flushStep_shed (sel : Record → Bool) (s : State) (i : EntryNo) : s.Shed (s.takenBy sel [i]) (s.flushStep sel i) := by
  obtain ⟨r, e, chosen, step⟩ | ⟨-, step⟩ := s.flushStep_cases sel i
  · have named := State.recordAt_handleOf e
    rw [step]
    refine (State.flushEntry_shed named).mono ?_
    rintro h rfl
    exact ⟨List.mem_singleton_self _, r, named, chosen⟩
  · rw [step]
    exact .refl _ s

/-- A step leaves the record of a handle of another entry. -/
theorem State.flushStep_recordAt (sel : Record → Bool) (s : State) {i : EntryNo} {h : EmitterHandle} (other : h.slot ≠ i) :
    (s.flushStep sel i).recordAt h = s.recordAt h := by
  simp only [State.recordAt, State.flushStep_entries, other, if_false]

theorem State.foldl_flush_entries (sel : Record → Bool) (is : List EntryNo) (s : State) (nodup : is.Nodup) (j : EntryNo) :
    (is.foldl (State.flushStep sel) s).entries.get j = if j ∈ is then (s.entries.get j).flushed sel else s.entries.get j := by
  induction is generalizing s with
  | nil => rfl
  | cons i is ih =>
    obtain ⟨fresh, nodup⟩ := List.nodup_cons.1 nodup
    rw [List.foldl_cons, ih _ nodup, State.flushStep_entries]
    by_cases same : j = i
    · subst same
      simp [fresh]
    · simp [same]

theorem State.foldl_flush_shed (sel : Record → Bool) (is : List EntryNo) (s : State) (nodup : is.Nodup) :
    s.Shed (s.takenBy sel is) (is.foldl (State.flushStep sel) s) := by
  induction is generalizing s with
  | nil => exact .refl _ s
  | cons i is ih =>
    obtain ⟨fresh, nodup⟩ := List.nodup_cons.1 nodup
    have first := (s.flushStep_shed sel i).mono (G := s.takenBy sel (i :: is)) fun h ⟨mem, taken⟩ =>
      ⟨List.mem_cons.2 (.inl (List.mem_singleton.1 mem)), taken⟩
    have rest := (ih (s.flushStep sel i) nodup).mono (G := s.takenBy sel (i :: is)) fun h ⟨mem, taken⟩ => by
      have other : h.slot ≠ i := fun same => fresh (same ▸ mem)
      rw [State.flushStep_recordAt sel s other] at taken
      exact ⟨List.mem_cons_of_mem _ mem, taken⟩
    exact first.trans rest

theorem State.recordAt_slot_record {s : State} {h : EmitterHandle} {r : Record} (e : s.recordAt h = some r) :
    s.handleOf h.slot = h ∧ (s.entries.get h.slot).record = some r := by
  obtain ⟨gen, record⟩ := State.recordAt_some e
  exact ⟨by rw [State.handleOf, gen], record⟩

/-- Every record that a flush takes has given back what it held. -/
theorem State.flushWhere_gaveBack {sel : Record → Bool} {s : State} {h : EmitterHandle} {r : Record}
    (e : s.recordAt h = some r) (chosen : sel r = true) : s.GaveBack (s.flushWhere sel) h r := by
  obtain ⟨before, after, split⟩ := List.append_of_mem (List.mem_finRange h.slot)
  have nodup := List.nodup_finRange 96
  rw [split, List.nodup_append] at nodup
  obtain ⟨nodupBefore, nodupAfter, apart⟩ := nodup
  have notBefore : h.slot ∉ before := fun mem => apart h.slot mem h.slot (List.mem_cons_self ..) rfl
  rw [State.flushWhere_eq, split, List.foldl_append, List.foldl_cons]
  generalize hv : before.foldl (State.flushStep sel) s = v
  have shed : s.Shed (s.takenBy sel before) v := hv ▸ s.foldl_flush_shed sel before nodupBefore
  have entry : v.entries.get h.slot = s.entries.get h.slot := by
    rw [← hv, State.foldl_flush_entries sel before s nodupBefore, if_neg notBefore]
  have named : v.recordAt h = some r := by
    unfold State.recordAt at e ⊢
    rwa [entry]
  obtain ⟨own, record⟩ := State.recordAt_slot_record named
  rw [State.flushStep_selected record chosen, own]
  have slot : v.slotOf h = s.slotOf h := shed.slotOf fun ⟨mem, _⟩ => notBefore mem
  exact ((State.flushEntry_gaveBack named).shed
    (State.foldl_flush_shed sel after _ (List.nodup_cons.1 nodupAfter).2)).of_slotOf slot

/-- A flush of the table: who may leave, and what the entries hold. -/
theorem State.flushWhere_shed (s : State) (sel : Record → Bool) :
    s.Shed (fun h => ∃ r, s.recordAt h = some r ∧ sel r = true) (s.flushWhere sel) :=
  (s.foldl_flush_shed sel _ (List.nodup_finRange 96)).mono fun _ ⟨_, taken⟩ => taken

theorem State.flushWhere_entries (s : State) (sel : Record → Bool) (j : EntryNo) :
    (s.flushWhere sel).entries.get j = (s.entries.get j).flushed sel := by
  rw [State.flushWhere_eq, State.foldl_flush_entries sel _ s (List.nodup_finRange 96), if_pos (List.mem_finRange j)]

end Sys2Proof.Machine
end

section
/-!
SUPPORT. The clips under a flush (R120, R123, R142): each flushed record in a holding state takes one reference off its clip, and
a DRAINING clip that loses the last one is EMPTY with its note.
-/

namespace Sys2Proof.Machine

/-! ## One reference -/

/-- No DRAINING clip stands in the catalog. -/
def State.noneDraining (s : State) : Prop := ∀ i c, (s.clips.get i).clip = some c → c.state ≠ .draining

/-- What the release of a reference to `d` leaves of another clip. -/
theorem State.releaseReference_otherClip {s : State} {c d : ClipHandle} {x : Clip} (e : s.clipAt c = some x) (other : d ≠ c) :
    (s.releaseReference d).clipAt c = some x := by
  cases clip : s.clipAt d with
  | none => rwa [State.releaseReference_gone clip]
  | some y =>
    have slot : c.slot ≠ d.slot := fun same => other (State.clipAt_handle clip e same.symm)
    unfold State.clipAt at e ⊢
    rwa [State.releaseReference_otherClips s d c.slot slot]

/-- An EMPTY slot is left by every release. -/
theorem State.releaseReference_empty {s : State} {i : ClipNo} (empty : (s.clips.get i).clip = none) (d : ClipHandle) :
    (s.releaseReference d).clips.get i = s.clips.get i := by
  cases clip : s.clipAt d with
  | none => rw [State.releaseReference_gone clip]
  | some y =>
    refine State.releaseReference_otherClips s d i fun same => ?_
    subst same
    rw [(State.clipAt_some clip).2] at empty
    cases empty

/-- Where no clip drains, a release changes the catalog alone, and none drains after it. -/
theorem State.releaseReference_noneDraining {s : State} (none : s.noneDraining) (d : ClipHandle) :
    (s.releaseReference d).noneDraining ∧ (s.releaseReference d).units = s.units ∧ (s.releaseReference d).sent = s.sent := by
  cases clip : s.clipAt d with
  | none =>
    rw [State.releaseReference_gone clip]
    exact ⟨none, rfl, rfl⟩
  | some y =>
    have state : y.state ≠ .draining := none d.slot y (State.clipAt_some clip).2
    rw [State.releaseReference_counts clip (.inr state)]
    refine ⟨fun i c stands => ?_, rfl, rfl⟩
    by_cases same : i = d.slot
    · subst same
      simp only [State.putClip, State.setClip, Table.get_set_self, Option.some.injEq] at stands
      subst stands
      exact state
    · rw [State.putClip_other s _ _ i same] at stands
      exact none i c stands

/-! ## One entry -/

/-- Whether the flush of an entry takes a reference off the clip `c`. -/
def State.givesUp (s : State) (sel : Record → Bool) (c : ClipHandle) (i : EntryNo) : Bool :=
  ((s.entries.get i).record.map fun r => r.state.isHolding && r.clip == c && sel r).getD false

theorem State.givesUp_of_record {s : State} {i : EntryNo} {r : Record} (e : (s.entries.get i).record = some r)
    (sel : Record → Bool) (c : ClipHandle) : s.givesUp sel c i = (r.state.isHolding && r.clip == c && sel r) := by
  rw [State.givesUp, e]
  rfl

/-- What a step of a flush does to the clips: a release for a selected record in a holding state, and nothing otherwise. -/
theorem State.flushStep_clips (sel : Record → Bool) (s : State) (i : EntryNo) :
    (∃ d, (∀ c, s.givesUp sel c i = decide (d = c)) ∧ (s.flushStep sel i).clips = (s.releaseReference d).clips ∧
      (s.flushStep sel i).units = (s.releaseReference d).units ∧ (s.flushStep sel i).sent = (s.releaseReference d).sent) ∨
    ((∀ c, s.givesUp sel c i = false) ∧ (s.flushStep sel i).clips = s.clips ∧ (s.flushStep sel i).units = s.units ∧
      (s.flushStep sel i).sent = s.sent) := by
  obtain ⟨r, e, chosen, step⟩ | ⟨other, step⟩ := s.flushStep_cases sel i
  · have named := State.recordAt_handleOf e
    rw [step]
    by_cases spent : r.state = .spent
    · have same : s.releaseHoldings (s.handleOf i) = s := State.releaseHoldings_spent named spent
      refine .inr ⟨fun c => by simp [State.givesUp_of_record e, spent, EmState.isHolding], ?_, ?_, ?_⟩
      · exact (congrArg State.clips same :)
      · exact (congrArg State.units same :)
      · exact (congrArg State.sent same :)
    · have holds := isHolding_of_ne_spent spent
      obtain ⟨clips, units, sent⟩ := State.releaseHoldings_clips named holds
      exact .inl ⟨r.clip, fun c => by simp [State.givesUp_of_record e, holds, chosen, beq_eq_decide], clips, units, sent⟩
  · rw [step]
    refine .inr ⟨fun c => ?_, rfl, rfl, rfl⟩
    cases e : (s.entries.get i).record with
    | none => simp [State.givesUp, e]
    | some r => simp [State.givesUp_of_record e, other r e]

theorem State.flushStep_keepsClip {sel : Record → Bool} {s : State} {i : EntryNo} {c : ClipHandle} {x : Clip}
    (e : s.clipAt c = some x) (keeps : s.givesUp sel c i = false) : (s.flushStep sel i).clipAt c = some x := by
  obtain ⟨d, gives, clips, -⟩ | ⟨-, clips, -⟩ := s.flushStep_clips sel i
  · have other : d ≠ c := by simpa [gives] using keeps
    rw [State.clipAt, clips]
    exact State.releaseReference_otherClip e other
  · rwa [State.clipAt, clips]

theorem State.flushStep_counts {sel : Record → Bool} {s : State} {i : EntryNo} {c : ClipHandle} {x : Clip}
    (e : s.clipAt c = some x) (gives : s.givesUp sel c i = true) (stays : 1 < x.refs ∨ x.state ≠ .draining) :
    (s.flushStep sel i).clipAt c = some { x with refs := x.refs - 1 } := by
  obtain ⟨d, names, clips, -⟩ | ⟨none, -⟩ := s.flushStep_clips sel i
  · obtain rfl : d = c := by simpa [names] using gives
    rw [State.clipAt, clips, State.releaseReference_counts e stays]
    exact State.clipAt_putClip e _
  · rw [none] at gives
    cases gives

/-- That a DRAINING clip has lost its last reference. -/
structure State.DrainedOf (u : State) (c : ClipHandle) (x : Clip) : Prop where
  empty : (u.clips.get c.slot).clip = none
  note : (u.clips.get c.slot).note = some (x.drainedNote c)
  attention : (u.units.get x.lane).summary &&& Cause.clipAttention.bit ≠ 0

theorem State.flushStep_drains {sel : Record → Bool} {s : State} {i : EntryNo} {c : ClipHandle} {x : Clip}
    (e : s.clipAt c = some x) (gives : s.givesUp sel c i = true) (last : x.refs ≤ 1) (draining : x.state = .draining) :
    (s.flushStep sel i).DrainedOf c x := by
  obtain ⟨d, names, clips, units, -⟩ | ⟨none, -⟩ := s.flushStep_clips sel i
  · obtain rfl : d = c := by simpa [names] using gives
    rw [State.releaseReference_drains e last draining] at clips units
    have slot : (s.flushStep sel i).clips.get d.slot =
        { s.clips.get d.slot with clip := none, note := some (x.drainedNote d) } := by
      rw [clips, State.setCause_clips]
      exact Table.get_set_self ..
    exact ⟨by rw [slot], by rw [slot], units ▸ State.setCause_stands _ _ _⟩
  · rw [none] at gives
    cases gives

theorem State.DrainedOf.flushStep {s : State} {c : ClipHandle} {x : Clip} (drained : s.DrainedOf c x) (sel : Record → Bool)
    (i : EntryNo) : (s.flushStep sel i).DrainedOf c x := by
  have slot : (s.flushStep sel i).clips.get c.slot = s.clips.get c.slot := by
    obtain ⟨d, -, clips, -⟩ | ⟨-, clips, -⟩ := s.flushStep_clips sel i
    · rw [clips]
      exact State.releaseReference_empty drained.empty d
    · rw [clips]
  exact ⟨slot ▸ drained.empty, slot ▸ drained.note, (s.flushStep_shed sel i).stand _ _ drained.attention⟩

theorem State.flushStep_noneDraining {s : State} (none : s.noneDraining) (sel : Record → Bool) (i : EntryNo) :
    (s.flushStep sel i).noneDraining ∧ (s.flushStep sel i).units = s.units ∧ (s.flushStep sel i).sent = s.sent := by
  unfold State.noneDraining
  obtain ⟨d, -, clips, units, sent⟩ | ⟨-, clips, units, sent⟩ := s.flushStep_clips sel i
  · obtain ⟨still, sameUnits, sameSent⟩ := State.releaseReference_noneDraining none d
    rw [clips, units, sent]
    exact ⟨still, sameUnits, sameSent⟩
  · rw [clips]
    exact ⟨none, units, sent⟩

/-! ## The flush of the table -/

theorem State.flushStep_givesUp (sel : Record → Bool) (s : State) {i j : EntryNo} (other : j ≠ i) (c : ClipHandle) :
    (s.flushStep sel i).givesUp sel c j = s.givesUp sel c j := by
  rw [State.givesUp, State.givesUp, State.flushStep_entries, if_neg other]

theorem State.DrainedOf.foldl_flush {c : ClipHandle} {x : Clip} (sel : Record → Bool) (is : List EntryNo) {s : State}
    (drained : s.DrainedOf c x) : (is.foldl (State.flushStep sel) s).DrainedOf c x := by
  induction is generalizing s with
  | nil => exact drained
  | cons i is ih => exact ih (drained.flushStep sel i)

/-- The clip `c` under a flush of some entries, by how many of them give up a reference to it. -/
theorem State.foldl_flush_clip (sel : Record → Bool) (is : List EntryNo) (nodup : is.Nodup) (s : State) {c : ClipHandle}
    {x : Clip} (e : s.clipAt c = some x) {n : Nat} (count : is.countP (s.givesUp sel c) = n) :
    (x.state ≠ .draining ∨ n < x.refs ∨ n = 0 →
      (is.foldl (State.flushStep sel) s).clipAt c = some { x with refs := x.refs - n }) ∧
    (x.state = .draining → n = x.refs → 0 < n → (is.foldl (State.flushStep sel) s).DrainedOf c x) := by
  induction is generalizing s x n with
  | nil =>
    subst count
    exact ⟨fun _ => e, fun _ _ some => absurd some (lt_irrefl 0)⟩
  | cons i is ih =>
    obtain ⟨fresh, nodup⟩ := List.nodup_cons.1 nodup
    have rest : is.countP ((s.flushStep sel i).givesUp sel c) = is.countP (s.givesUp sel c) :=
      List.countP_congr fun j mem => by
        rw [State.flushStep_givesUp sel s (i := i) (j := j) fun same => fresh (same ▸ mem)]
    rw [List.countP_cons] at count
    rw [List.foldl_cons]
    cases gives : s.givesUp sel c i with
    | false =>
      rw [gives] at count
      exact ih nodup _ (State.flushStep_keepsClip e gives) (rest.trans count)
    | true =>
      rw [gives, if_pos rfl] at count
      subst count
      by_cases stays : 1 < x.refs ∨ x.state ≠ .draining
      · obtain ⟨counts, drains⟩ := ih nodup _ (State.flushStep_counts e gives stays) rest
        refine ⟨fun left => ?_, fun draining all some => ?_⟩
        · rw [counts (left.imp_right fun some => .inl (show _ < x.refs - 1 by omega))]
          simp only [Nat.sub_sub, Nat.add_comm 1]
        · have more : 1 < x.refs := stays.resolve_right (not_not.2 draining)
          obtain ⟨empty, note, attention⟩ := drains draining (show _ = x.refs - 1 by omega) (by omega)
          exact ⟨empty, note, attention⟩
      · obtain ⟨last, draining⟩ := not_or.1 stays
        have drained := State.flushStep_drains e gives (Nat.not_lt.1 last) (not_not.1 draining)
        refine ⟨fun left => ?_, fun _ _ _ => drained.foldl_flush sel is⟩
        have := left.resolve_left draining
        omega

theorem State.foldl_flush_noneDraining (sel : Record → Bool) (is : List EntryNo) {s : State} (none : s.noneDraining) :
    (is.foldl (State.flushStep sel) s).units = s.units ∧ (is.foldl (State.flushStep sel) s).sent = s.sent := by
  induction is generalizing s with
  | nil => exact ⟨rfl, rfl⟩
  | cons i is ih =>
    obtain ⟨still, units, sent⟩ := State.flushStep_noneDraining none sel i
    obtain ⟨lastUnits, lastSent⟩ := ih still
    exact ⟨lastUnits.trans units, lastSent.trans sent⟩

/-! ## Counting -/

theorem cells_eq {α : Type} {n : Nat} (t : Table α n) : t.cells = (List.finRange n).map t.get := by
  obtain ⟨cells, length⟩ := t
  refine List.ext_getElem (by simp [length]) fun i _ _ => ?_
  simp [Table.get]

/-- The records of the table that have a property, counted by their entries. -/
theorem State.countP_records (s : State) (p : Record → Bool) :
    (s.records.filter p).length = (List.finRange 96).countP fun i => ((s.entries.get i).record.map p).getD false := by
  rw [← List.countP_eq_length_filter, State.records, cells_eq, List.countP_filterMap, List.countP_map]
  rfl

theorem State.countP_givesUp (s : State) (sel : Record → Bool) (c : ClipHandle) :
    (List.finRange 96).countP (s.givesUp sel c) =
      (s.records.filter fun r => r.state.isHolding && r.clip == c && sel r).length :=
  (s.countP_records _).symm

/-- A clip under a flush of the table. -/
theorem State.flushWhere_clip (s : State) (sel : Record → Bool) {c : ClipHandle} {x : Clip} (e : s.clipAt c = some x) {n : Nat}
    (count : n = (s.records.filter fun r => r.state.isHolding && r.clip == c && sel r).length) :
    (x.state ≠ .draining ∨ n < x.refs ∨ n = 0 → (s.flushWhere sel).clipAt c = some { x with refs := x.refs - n }) ∧
    (x.state = .draining → n = x.refs → 0 < n → (s.flushWhere sel).DrainedOf c x) :=
  State.foldl_flush_clip sel _ (List.nodup_finRange 96) s e ((s.countP_givesUp sel c).trans count.symm)

theorem State.DrainedOf.clipAt {u : State} {c : ClipHandle} {x : Clip} (drained : u.DrainedOf c x) : u.clipAt c = none := by
  simp [State.clipAt, drained.empty]

/-! ## FLUSH_LANE -/

theorem checkFlush_ok {l target : Lane} {b : BitVec 8} (names : b.toNat = target.val) (lane : l = 0 ∨ l = target) :
    checkFlush l b = .ok target := by
  simp [checkFlush, want, four_val names, need, laneMay_true lane, bind, Except.bind, pure, Except.pure]

theorem State.flushEffect_eq (s : State) (target : Lane) :
    s.flushEffect target = (s.flushWhere fun r => r.lane == target,
      ⟨.done, .flushed (s.records.filter fun r => r.lane == target).length⟩) := rfl

/-- Settles O23: what a flush takes and leaves, over the handles of the lane. -/
theorem flushLaneFreesOneLane : Obligations.FlushLaneFreesOneLane := by
  intro s l target b flushed handed names lane which
  have shed : s.Shed flushed (s.flushWhere fun r => r.lane == target) :=
    (s.flushWhere_shed _).mono fun h ⟨r, record, chosen⟩ => (which h).2 ⟨r, record, by simpa using chosen⟩
  have entries := s.flushWhere_entries fun r => r.lane == target
  have gaveBack := fun h r (record : s.recordAt h = some r) (own : r.lane = target) =>
    State.flushWhere_gaveBack (sel := fun r => r.lane == target) record (by simpa using own)
  have clip := fun c x (e : s.clipAt c = some x) => s.flushWhere_clip (fun r => r.lane == target) e (n := s.laneHolders c target) rfl
  have noneDraining := fun none => State.foldl_flush_noneDraining (fun r => r.lane == target) (List.finRange 96) (s := s) none
  rw [← State.flushWhere_eq] at noneDraining
  have step := exec_accepted (exec_flushLane_handed handed) (checkFlush_ok names lane)
  rw [s.flushEffect_eq] at step
  refine ⟨_, step, ?_⟩
  generalize (s.flushWhere fun r => r.lane == target) = u at *
  refine ⟨?_, ?_, gaveBack, ?_, ?_, ?_, noneDraining, shed.unit, shed.trigger, shed.port, shed.frame⟩
  · intro i r e own
    rw [entries, Entry.flushed, e]
    simp [Option.filter, own]
  · intro i other
    rw [entries, Entry.flushed]
    cases e : (s.entries.get i).record with
    | none => simp only [Option.filter, ← e]
    | some r => simp [Option.filter, other r e, ← e]
  · intro h stays
    refine ⟨shed.spentList.mem_iff stays, shed.armSet.mem_iff stays, shed.grantQueue.mem_iff stays, fun n owner => ?_,
      fun k => ⟨(shed.armList k).mem_iff stays, (shed.applyList k).mem_iff stays⟩, fun p => ⟨?_, ?_⟩⟩
    · obtain same | ⟨-, k, owned, leaves⟩ := shed.slots n
      · exact same
      · cases owner.symm.trans owned
        exact absurd leaves stays
    · rintro m rfl
      exact (shed.members p).mem_iff stays
    · rintro m rfl
      exact (shed.reservations p).mem_iff stays
  · intro x mem stays
    refine shed.timer.2 x mem ?_
    rintro ⟨h, leaves, kind | ⟨n, kind⟩⟩
    · rw [(stays h leaves).1] at kind
      cases kind
    · exact (stays h leaves).2 n kind
  · rintro c x n e rfl -
    obtain ⟨counts, drains⟩ := clip c x e
    refine ⟨counts, fun draining all some => ?_⟩
    have drained := drains draining all some
    exact ⟨drained.clipAt, drained.note, drained.attention⟩

end Sys2Proof.Machine
end

section
/-!
SUPPORT. SCENE_FLUSH (R184): the abort of every unit in lane order, and the flush of the whole table after it.
-/

namespace Sys2Proof.Machine

/-! ## The abort of one unit -/

/-- The clip of a load that has been ended: DEFINED, without a computed checksum. -/
def Clip.unloaded (c : Clip) : Clip := { c with state := .defined, computedCrc := none }

/-- The abort of a unit that is not HELD changes the units and the walk alone. -/
theorem State.abortUnit_notHeld {s : State} {l : Lane} (other : (s.units.get l).state ≠ .active .held) :
    s.abortUnit l = { s with units := (s.abortUnit l).units, walk := (s.abortUnit l).walk } := by
  by_cases handed : (s.units.get l).state = .active .handed
  · rw [State.abortUnit_handed handed]
  · rw [State.abortUnit_simple handed other]

theorem State.inPhase_iff (s : State) (l : Lane) (p : Phase) : s.inPhase l p = true ↔ (s.units.get l).state = .active p := by
  rw [State.inPhase, beq_iff_eq]

/-- The load of another lane is found as before. -/
theorem find_of_lane {l k : Lane} (other : k ≠ l) (queue : List Load) :
    (queue.filter fun y => y.lane != l).find? (fun x => x.lane == k) = queue.find? fun x => x.lane == k := by
  rw [List.find?_filter]
  refine congrArg (queue.find? ·) (funext fun y => ?_)
  by_cases own : y.lane = k
  · simp [own, other]
  · simp [own]

theorem State.findLoad_dropped {s t : State} {l k : Lane} (other : k ≠ l)
    (queue : t.loadQueue = s.loadQueue.filter fun y => y.lane != l) (copy : t.copy = s.copy.filter fun y => y.load.lane != l) :
    t.findLoad (fun x => x.lane == k) = s.findLoad fun x => x.lane == k := by
  unfold State.findLoad
  rw [queue, copy, find_of_lane other]
  cases engine : s.copy with
  | none => rfl
  | some x =>
    by_cases own : x.load.lane = l
    · have drops : (x.load.lane != l) = false := by simp [own]
      have notMine : ¬ (x.load.lane == k) = true := by simpa [own] using other.symm
      rw [Option.filter_some, drops]
      exact (if_neg notMine).symm
    · have keeps : (x.load.lane != l) = true := by simp [own]
      rw [Option.filter_some, keeps]
      rfl

/-- The end of a lane's load leaves a clip, or ends its loading. -/
theorem State.abortLoad_clip {s : State} (l : Lane) {c : ClipHandle} {x : Clip} (e : s.clipAt c = some x) :
    (s.abortLoad l).clipAt c = some x ∨ x.state = .loading ∧ (s.abortLoad l).clipAt c = some x.unloaded := by
  cases load : s.findLoad fun x => x.lane == l with
  | none =>
    have same : s.abortLoad l = s := by simp only [State.abortLoad, load]
    exact .inl (by rwa [same])
  | some found =>
    obtain ⟨y, n⟩ := found
    by_cases named : y.clip = c
    · subst named
      by_cases loading : x.state = .loading
      · exact .inr ⟨loading, State.abortLoad_clipAt load e loading⟩
      · refine .inl ?_
        have dropped : (s.dropLoad fun y => y.lane == l).clipAt y.clip = some x := e
        simp only [State.abortLoad, load, State.leaveLoading, dropped, if_neg loading]
    · refine .inl ?_
      have dropped : (s.dropLoad fun y => y.lane == l).clipAt c = some x := e
      simp only [State.abortLoad, load]
      unfold State.leaveLoading
      split
      · next d clip =>
        split
        · have slot : c.slot ≠ y.clip.slot := fun same => named (State.clipAt_handle clip dropped same.symm)
          rw [State.clipAt, State.putClip_other _ _ _ c.slot slot]
          exact dropped
        · exact dropped
      · exact dropped

/-- The end of a lane's load lets no clip drain. -/
theorem State.abortLoad_draining {s : State} {l : Lane} {i : ClipNo} {c : Clip}
    (stands : ((s.abortLoad l).clips.get i).clip = some c) (draining : c.state = .draining) :
    (s.clips.get i).clip = some c := by
  unfold State.abortLoad at stands
  split at stands
  · next y n load =>
    unfold State.leaveLoading at stands
    split at stands
    · next d clip =>
      split at stands
      · by_cases same : i = y.clip.slot
        · subst same
          simp only [State.putClip, State.setClip, Table.get_set_self, Option.some.injEq] at stands
          subst stands
          cases draining
        · rw [State.putClip_other _ _ _ i same] at stands
          exact stands
      · exact stands
    · exact stands
  · exact stands

/-! ## The abort of several units -/

/-- The units of `ls` have been aborted in turn on the way from `s` to `v` (R172), the load engine taking no load in between. -/
structure State.Aborts (s : State) (ls : List Lane) (v : State) : Prop where
  own : ∀ l ∈ ls, (v.units.get l).state = .idle ∧ v.units.get l = { s.units.get l with
    state := .idle, block := (v.units.get l).block, answer := (v.units.get l).answer }
  others : ∀ k, k ∉ ls → v.units.get k = s.units.get k ∧ v.copiedFor k = s.copiedFor k ∧
    v.findLoad (fun x => x.lane == k) = s.findLoad fun x => x.lane == k
  writes : ∃ ws : List HostWrite, v.writes = s.writes ++ ws ∧ v.nextTag = s.nextTag + ws.length ∧
    ws.map (·.lane) = ls.filter (fun l => s.inPhase l .held) ∧
    ∀ i w, ws[i]? = some w → s.AbortedWrite w.lane (s.nextTag + i) w
  inFlight : v.inFlight = s.inFlight.filter fun m => ls.all fun l => !(s.inPhase l .held && m.isHeldDone l)
  queue : ∀ x ∈ v.loadQueue, x ∈ s.loadQueue ∧ (x.lane ∈ ls → (s.units.get x.lane).state ≠ .active .held)
  copy : ∀ x, v.copy = some x → s.copy = some x ∧ (x.load.lane ∈ ls → (s.units.get x.load.lane).state ≠ .active .held)
  walkKept : (∀ l ∈ ls, (s.units.get l).state ≠ .active .handed) → v.walk = s.walk
  walkEnded : ∀ l ∈ ls, (s.units.get l).state = .active .handed → v.walk = none
  port : ∀ p, v.ports.get p = { s.ports.get p with exchange := (v.ports.get p).exchange, job := (v.ports.get p).job }
  clip : ∀ c x, s.clipAt c = some x → v.clipAt c = some x ∨ x.state = .loading ∧ v.clipAt c = some x.unloaded
  ended : ∀ l ∈ ls, (s.units.get l).state = .active .held → ∀ x n c, s.findLoad (fun y => y.lane == l) = some (x, n) →
    s.clipAt x.clip = some c → c.state = .loading → v.clipAt x.clip = some c.unloaded
  draining : ∀ i c, (v.clips.get i).clip = some c → c.state = .draining → (s.clips.get i).clip = some c
  frame : v = { s with
    units := v.units, walk := v.walk, writes := v.writes, nextTag := v.nextTag, inFlight := v.inFlight
    loadQueue := v.loadQueue, copy := v.copy, clips := v.clips, ports := v.ports }

namespace State.Aborts

theorem nil (s : State) : s.Aborts [] s where
  own := by simp
  others _ _ := ⟨rfl, rfl, rfl⟩
  writes := ⟨[], by simp, rfl, rfl, by simp⟩
  inFlight := by simp
  queue x mem := ⟨mem, by simp⟩
  copy x e := ⟨e, by simp⟩
  walkKept _ := rfl
  walkEnded := by simp
  port _ := rfl
  clip _ _ e := .inl e
  ended := by simp
  draining _ _ e _ := e
  frame := rfl

section Trans

variable {s t v : State} {as bs : List Lane} (a : s.Aborts as t) (b : t.Aborts bs v) (apart : ∀ l ∈ bs, l ∉ as)
include a b apart

theorem trans_own : ∀ l ∈ as ++ bs, (v.units.get l).state = .idle ∧ v.units.get l = { s.units.get l with
    state := .idle, block := (v.units.get l).block, answer := (v.units.get l).answer } := by
  intro l mem
  by_cases late : l ∈ bs
  · rw [← (a.others l (apart l late)).1]
    exact b.own l late
  · rw [(b.others l late).1]
    exact a.own l ((List.mem_append.1 mem).resolve_right late)

omit b in
/-- A lane that is aborted later is in the phase it was in. -/
theorem inPhase_later {l : Lane} (late : l ∈ bs) (p : Phase) : t.inPhase l p = s.inPhase l p := by
  rw [State.inPhase, State.inPhase, (a.others l (apart l late)).1]

theorem trans_writes : ∃ ws : List HostWrite, v.writes = s.writes ++ ws ∧ v.nextTag = s.nextTag + ws.length ∧
    ws.map (·.lane) = (as ++ bs).filter (fun l => s.inPhase l .held) ∧
    ∀ i w, ws[i]? = some w → s.AbortedWrite w.lane (s.nextTag + i) w := by
  obtain ⟨early, earlyWrites, earlyTag, earlyLanes, earlyAborted⟩ := a.writes
  obtain ⟨late, lateWrites, lateTag, lateLanes, lateAborted⟩ := b.writes
  refine ⟨early ++ late, by rw [lateWrites, earlyWrites, List.append_assoc], ?_, ?_, fun i w given => ?_⟩
  · rw [lateTag, earlyTag, List.length_append, Nat.add_assoc]
  · rw [List.map_append, List.filter_append, earlyLanes, lateLanes]
    exact congrArg _ (List.filter_congr fun l mem => inPhase_later a apart mem .held)
  · by_cases first : i < early.length
    · rw [List.getElem?_append_left first] at given
      exact earlyAborted i w given
    · rw [List.getElem?_append_right (Nat.not_lt.1 first)] at given
      have lane : w.lane ∈ bs := by
        have mem := List.mem_map_of_mem (f := HostWrite.lane) (List.mem_of_getElem? given)
        rw [lateLanes] at mem
        exact (List.mem_filter.1 mem).1
      obtain ⟨unit, copied, -⟩ := a.others w.lane (apart w.lane lane)
      have aborted := lateAborted _ w given
      rw [earlyTag, Nat.add_assoc, Nat.add_sub_cancel' (Nat.not_lt.1 first)] at aborted
      exact State.abortedWrite_congr unit copied aborted

theorem trans_inFlight :
    v.inFlight = s.inFlight.filter fun m => (as ++ bs).all fun l => !(s.inPhase l .held && m.isHeldDone l) := by
  rw [b.inFlight, a.inFlight, List.filter_filter]
  refine List.filter_congr fun m _ => ?_
  rw [List.all_append, Bool.and_comm]
  refine congrArg _ ?_
  rw [Bool.eq_iff_iff, List.all_eq_true, List.all_eq_true]
  exact forall₂_congr fun l mem => by rw [inPhase_later a apart mem]

theorem trans : s.Aborts (as ++ bs) v where
  own := trans_own a b apart
  others k out := by
    obtain ⟨early, late⟩ := not_or.1 (mt List.mem_append.2 out)
    obtain ⟨unit, copied, load⟩ := a.others k early
    obtain ⟨unit', copied', load'⟩ := b.others k late
    exact ⟨unit'.trans unit, copied'.trans copied, load'.trans load⟩
  writes := trans_writes a b apart
  inFlight := trans_inFlight a b apart
  queue x mem := by
    obtain ⟨mem, late⟩ := b.queue x mem
    obtain ⟨mem, early⟩ := a.queue x mem
    refine ⟨mem, fun own => ?_⟩
    by_cases second : x.lane ∈ bs
    · rw [← (a.others x.lane (apart x.lane second)).1]
      exact late second
    · exact early ((List.mem_append.1 own).resolve_right second)
  copy x e := by
    obtain ⟨e, late⟩ := b.copy x e
    obtain ⟨e, early⟩ := a.copy x e
    refine ⟨e, fun own => ?_⟩
    by_cases second : x.load.lane ∈ bs
    · rw [← (a.others x.load.lane (apart x.load.lane second)).1]
      exact late second
    · exact early ((List.mem_append.1 own).resolve_right second)
  walkKept none := by
    rw [b.walkKept fun l mem => ?_, a.walkKept fun l mem => none l (List.mem_append_left _ mem)]
    rw [(a.others l (apart l mem)).1]
    exact none l (List.mem_append_right _ mem)
  walkEnded l mem handed := by
    by_cases late : ∃ k ∈ bs, (t.units.get k).state = .active .handed
    · obtain ⟨k, second, ends⟩ := late
      exact b.walkEnded k second ends
    · have none : ∀ k ∈ bs, (t.units.get k).state ≠ .active .handed := fun k second ends => late ⟨k, second, ends⟩
      rw [b.walkKept none]
      obtain first | second := List.mem_append.1 mem
      · exact a.walkEnded l first handed
      · exact absurd ((a.others l (apart l second)).1 ▸ handed) (none l second)
  port p := by rw [b.port p, a.port p]
  clip c x e := by
    obtain same | ⟨loading, ended⟩ := a.clip c x e
    · exact b.clip c x same
    · obtain same | ⟨again, -⟩ := b.clip c _ ended
      · exact .inr ⟨loading, same⟩
      · cases again
  ended l mem held x n c load e loading := by
    have stays : t.clipAt x.clip = some c.unloaded → v.clipAt x.clip = some c.unloaded := fun done => by
      obtain same | ⟨again, -⟩ := b.clip _ _ done
      · exact same
      · cases again
    by_cases second : l ∈ bs
    · obtain ⟨unit, -, found⟩ := a.others l (apart l second)
      obtain same | ⟨-, done⟩ := a.clip x.clip c e
      · exact b.ended l second (unit ▸ held) x n c (found.trans load) same loading
      · exact stays done
    · exact stays (a.ended l ((List.mem_append.1 mem).resolve_right second) held x n c load e loading)
  draining i c e state := a.draining i c (b.draining i c e state) state
  frame := by rw [b.frame, a.frame]

end Trans

/-- The abort of one unit. -/
theorem one (s : State) (l : Lane) : s.Aborts [l] (s.abortUnit l) := by
  obtain ⟨others, heldWrites, otherWrites, inFlight, walk⟩ := s.abortUnit_spec l
  have own := s.abortUnit_unit l
  have writes : ∃ ws : List HostWrite, (s.abortUnit l).writes = s.writes ++ ws ∧
      (s.abortUnit l).nextTag = s.nextTag + ws.length ∧ ws.map (·.lane) = [l].filter (fun l => s.inPhase l .held) ∧
      ∀ i w, ws[i]? = some w → s.AbortedWrite w.lane (s.nextTag + i) w := by
    cases held : s.inPhase l .held with
    | false =>
      obtain ⟨same, tag⟩ := otherWrites held
      exact ⟨[], by rw [same, List.append_nil], tag, by simp [held], by simp⟩
    | true =>
      obtain ⟨w, aborted, issued, tag⟩ := heldWrites held
      have lane : w.lane = l := aborted.2.1
      refine ⟨[w], issued, tag, by simp [held, lane], fun i y given => ?_⟩
      obtain ⟨rfl, rfl⟩ : i = 0 ∧ w = y := by simpa [List.getElem?_singleton] using given
      rw [lane]
      exact aborted
  have walkKept : (∀ k ∈ [l], (s.units.get k).state ≠ .active .handed) → (s.abortUnit l).walk = s.walk := fun none => by
    rw [walk, if_neg (none l (List.mem_singleton_self l))]
  have walkEnded : ∀ k ∈ [l], (s.units.get k).state = .active .handed → (s.abortUnit l).walk = none := fun k mem handed => by
    obtain rfl := List.mem_singleton.1 mem
    rw [walk, if_pos handed]
  have inFlight' : (s.abortUnit l).inFlight =
      s.inFlight.filter fun m => [l].all fun k => !(s.inPhase k .held && m.isHeldDone k) := by simpa using inFlight
  have units : ∀ k ∈ [l], ((s.abortUnit l).units.get k).state = .idle ∧ (s.abortUnit l).units.get k = { s.units.get k with
      state := .idle, block := ((s.abortUnit l).units.get k).block, answer := ((s.abortUnit l).units.get k).answer } := by
    intro k mem
    obtain rfl := List.mem_singleton.1 mem
    exact own
  by_cases held : (s.units.get l).state = .active .held
  · obtain ⟨w, -, e⟩ := State.abortUnit_held held
    generalize s.abortUnit l = v at *
    have clips : v.clips = (s.abortLoad l).clips := by rw [e]
    have queue : v.loadQueue = s.loadQueue.filter fun y => y.lane != l := by rw [e]
    have copy : v.copy = s.copy.filter fun y => y.load.lane != l := by rw [e]
    have clipAt (c : ClipHandle) : v.clipAt c = (s.abortLoad l).clipAt c := by
      rw [State.clipAt, clips]
      rfl
    obtain ⟨freeQueue, freeCopy⟩ := loads_dropped s l
    refine
      { own := units
        others := fun k out => ?_
        writes := writes
        inFlight := inFlight'
        queue := fun x mem => ?_
        copy := fun x stands => ?_
        walkKept := walkKept
        walkEnded := walkEnded
        port := fun p => by rw [e, Table.get_map]; rfl
        clip := fun c x at_ => by rw [clipAt]; exact State.abortLoad_clip l at_
        ended := fun k mem _ x n c load at_ loading => ?_
        draining := fun i c stands state => State.abortLoad_draining (l := l) (clips ▸ stands) state
        frame := by rw [e] }
    · have other : k ≠ l := fun same => out (same ▸ List.mem_singleton_self l)
      exact ⟨(others k other).1, (others k other).2, State.findLoad_dropped other queue copy⟩
    · rw [queue] at mem
      exact ⟨(List.mem_filter.1 mem).1, fun own => absurd (List.mem_singleton.1 own) (freeQueue x mem)⟩
    · rw [copy] at stands
      exact ⟨(Option.filter_eq_some_iff.1 stands).1, fun own => absurd (List.mem_singleton.1 own) (freeCopy x stands)⟩
    · obtain rfl := List.mem_singleton.1 mem
      rw [clipAt]
      exact State.abortLoad_clipAt load at_ loading
  · have e := State.abortUnit_notHeld held
    generalize s.abortUnit l = v at *
    have clips : v.clips = s.clips := by rw [e]
    have queue : v.loadQueue = s.loadQueue := by rw [e]
    have copy : v.copy = s.copy := by rw [e]
    have notHeld {k : Lane} (mem : k ∈ [l]) : (s.units.get k).state ≠ .active .held := List.mem_singleton.1 mem ▸ held
    exact
      { own := units
        others := fun k out => by
          have other : k ≠ l := fun same => out (same ▸ List.mem_singleton_self l)
          refine ⟨(others k other).1, (others k other).2, ?_⟩
          rw [e]
          rfl
        writes := writes
        inFlight := inFlight'
        queue := fun x mem => ⟨queue ▸ mem, notHeld⟩
        copy := fun x stands => ⟨copy ▸ stands, notHeld⟩
        walkKept := walkKept
        walkEnded := walkEnded
        port := fun p => by rw [e]
        clip := fun c x at_ => .inl (by rw [State.clipAt, clips]; exact at_)
        ended := fun k mem waits => absurd waits (notHeld mem)
        draining := fun i c stands _ => clips ▸ stands
        frame := by rw [e] }

theorem foldl (ls : List Lane) (nodup : ls.Nodup) (s : State) : s.Aborts ls (ls.foldl (fun s l => s.abortUnit l) s) := by
  induction ls generalizing s with
  | nil => exact nil s
  | cons l ls ih =>
    obtain ⟨fresh, nodup⟩ := List.nodup_cons.1 nodup
    exact trans (one s l) (ih nodup _) fun k mem first => fresh (List.mem_singleton.1 first ▸ mem)

end State.Aborts

/-! ## The flush of the whole table -/

theorem and_not_eq_zero_of_or {n : Nat} {x c : BitVec n} (e : x ||| c = 0 ||| c) : x &&& ~~~c = 0 := by
  ext i
  have bit := congrArg (fun y : BitVec n => y.getLsbD i) e
  simp only [BitVec.getLsbD_or] at bit
  simp_all

/-- A table without records has its whole pool free. -/
theorem State.poolFree_of_empty {t : State} (empty : ∀ i, (t.entries.get i).record = none) : t.poolFree = 320 := by
  have records : t.records = [] := by
    rw [State.records, cells_eq, List.filterMap_map, List.filterMap_eq_nil_iff]
    exact fun i _ => empty i
  rw [State.poolFree, State.poolBound, State.poolReserved, records]
  rfl

/-- The state after the aborts and the clearing of the summaries, from which the table is flushed. -/
def State.flushFrom (s : State) : State := ((List.finRange 4).foldl (fun s l => s.abortUnit l) s).clearSummaries

theorem exec_sceneFlush_ready {s : State} (ready : s.phase = .ready) :
    exec .sceneFlush s = .next (s.flushFrom.flushWhere fun _ => true) := by
  dsimp only [exec, execSceneFlush]
  exact if_pos ready

theorem State.clearSummaries_unit (v : State) (l : Lane) :
    v.clearSummaries.units.get l = { v.units.get l with summary := 0 } := Table.get_map ..

/-- What a SCENE_FLUSH keeps, clears and gives back, by the aborts `a` that it begins with and the flush that it ends with. -/
theorem State.sceneFlush_spec {s v t : State} (a : s.Aborts (List.finRange 4) v)
    (flushed : t = v.clearSummaries.flushWhere fun _ => true) :
    (∀ l, (t.units.get l).state = .idle ∧ (t.units.get l).current = (s.units.get l).current ∧
      (t.units.get l).listBase = (s.units.get l).listBase ∧ (t.units.get l).enable = (s.units.get l).enable ∧
      (t.units.get l).window = (s.units.get l).window) ∧
    (∀ l, (t.units.get l).summary &&& ~~~Cause.clipAttention.bit = 0) ∧
    (s.noneDraining → ∀ l, (t.units.get l).summary = 0) ∧
    (∀ i, (t.entries.get i).record = none ∧ (t.entries.get i).gen = (s.entries.get i).gen ∧
      (t.entries.get i).unused = (s.entries.get i).unused) ∧
    (∀ h r, s.recordAt h = some r → s.GaveBack t h r) ∧
    (∀ c x, v.clipAt c = some x → x.refs = s.holders c ∨ x.refs = 0 ∧ x.state ≠ .draining →
      (x.state ≠ .draining ∨ x.refs = 0 → t.clipAt c = some { x with refs := 0 }) ∧
      (x.state = .draining → 0 < x.refs → t.DrainedOf c x)) ∧
    v.clearSummaries.Shed (fun _ => True) t := by
  have entries : v.entries = s.entries := by rw [a.frame]
  have slots : v.slots = s.slots := by rw [a.frame]
  have unit (l : Lane) := a.own l (List.mem_finRange l)
  have shed := v.clearSummaries.flushWhere_shed fun _ => true
  have left (i : EntryNo) := v.clearSummaries.flushWhere_entries (fun _ => true) i
  have gaveBack := fun h r (e : v.clearSummaries.recordAt h = some r) => State.flushWhere_gaveBack (sel := fun _ => true) e rfl
  have clip := fun c x (e : v.clearSummaries.clipAt c = some x) => v.clearSummaries.flushWhere_clip (fun _ => true) e rfl
  have noneDraining := fun none =>
    State.foldl_flush_noneDraining (fun _ => true) (List.finRange 96) (s := v.clearSummaries) none
  rw [← State.flushWhere_eq, ← flushed] at noneDraining
  rw [← flushed] at shed
  simp only [← flushed] at left gaveBack clip
  refine ⟨fun l => ?_, fun l => ?_, fun none l => ?_, fun i => ?_, fun h r e => ?_, fun c x e count => ?_,
    shed.mono fun _ _ => trivial⟩
  · obtain ⟨idle, same⟩ := unit l
    rw [(shed.unit l).1, v.clearSummaries_unit]
    refine ⟨idle, ?_, ?_, ?_, ?_⟩
    all_goals dsimp only; rw [same]
  · have bits := (shed.unit l).2
    rw [v.clearSummaries_unit] at bits
    exact and_not_eq_zero_of_or bits
  · have still : v.clearSummaries.noneDraining := fun i c e state => none i c (a.draining i c e state) state
    rw [(noneDraining still).1, v.clearSummaries_unit]
  · rw [left]
    have same : v.clearSummaries.entries = s.entries := entries
    rw [same]
    refine ⟨?_, rfl, rfl⟩
    cases record : (s.entries.get i).record <;> simp [Entry.flushed, record]
  · have same : v.clearSummaries.recordAt h = s.recordAt h := by
      have entries : v.clearSummaries.entries = s.entries := entries
      rw [State.recordAt, entries]
      rfl
    have slot : v.clearSummaries.slotOf h = s.slotOf h := by
      have slots : v.clearSummaries.slots = s.slots := slots
      rw [State.slotOf, slots]
      rfl
    exact (gaveBack h r (same.trans e)).of_slotOf slot
  · obtain ⟨counts, drains⟩ := clip c x e
    have number : (v.clearSummaries.records.filter fun r => r.state.isHolding && r.clip == c && true).length =
        s.holders c := by
      have records : v.clearSummaries.records = s.records := congrArg (fun t => t.cells.filterMap (·.record)) entries
      rw [records]
      simp only [Bool.and_true]
      rfl
    rw [number] at counts drains
    refine ⟨fun stays => ?_, fun state some => drains state ?_ ?_⟩
    · have given : x.state ≠ .draining ∨ s.holders c < x.refs ∨ s.holders c = 0 := by
        obtain state | zero := stays
        · exact .inl state
        · obtain count | ⟨-, state⟩ := count
          · exact .inr (.inr (count ▸ zero))
          · exact .inl state
      rw [counts given]
      have spent : x.refs - s.holders c = 0 := by omega
      rw [spent]
    · omega
    · omega

/-- Settles O11: the aborts of the units in lane order, and after them the flush of every entry. -/
theorem sceneFlushFreesTheTable : Obligations.SceneFlushFreesTheTable := by
  intro s
  refine ⟨fun starting => ?_, fun ready => ?_⟩
  · dsimp only [exec, execSceneFlush]
    exact if_neg starting
  · have a := State.Aborts.foldl (List.finRange 4) (List.nodup_finRange 4) s
    have step := exec_sceneFlush_ready ready
    unfold State.flushFrom at step
    generalize (List.finRange 4).foldl (fun s l => s.abortUnit l) s = v at a step
    generalize flushed : (v.clearSummaries.flushWhere fun _ => true) = t at step
    obtain ⟨units, bits, clear, entries, gaveBack, clips, shed⟩ := State.sceneFlush_spec a flushed.symm
    have writes : t.writes = v.writes := by rw [shed.frame]; rfl
    have tag : t.nextTag = v.nextTag := by rw [shed.frame]; rfl
    have inFlight : t.inFlight = v.inFlight := by rw [shed.frame]; rfl
    have queue : t.loadQueue = v.loadQueue := by rw [shed.frame]; rfl
    have copy : t.copy = v.copy := by rw [shed.frame]; rfl
    have walk : t.walk = v.walk := by rw [shed.frame]; rfl
    have triggers : v.triggers = s.triggers := by rw [a.frame]
    have frame : t = { s with
        units := t.units, walk := t.walk, writes := t.writes, nextTag := t.nextTag, inFlight := t.inFlight, sent := t.sent
        loadQueue := t.loadQueue, copy := t.copy, clips := t.clips, ports := t.ports, entries := t.entries
        spentList := t.spentList, armSet := t.armSet, grantQueue := t.grantQueue, timer := t.timer, triggers := t.triggers
        slots := t.slots, strayReads := t.strayReads } := by
      rw [writes, tag, inFlight, queue, copy, walk, shed.frame]
      rw [a.frame]
      rfl
    refine ⟨t, step, units, entries, ?_, ?_, ?_, ?_, ?_, ?_, bits, clear, gaveBack, State.poolFree_of_empty fun i => (entries i).1,
      ?_, ?_, ?_, ?_, ?_, ?_, ?_, ?_, ?_, ?_, ?_, ?_, frame⟩
    · rw [frame]
    · rw [frame]
    · rw [frame]
    · rw [frame]
    · rw [frame]
    · rw [frame]
    · intro c x e state count
      obtain same | ⟨loading, -⟩ := a.clip c x e
      · obtain ⟨counts, drains⟩ := clips c x same (.inl count)
        refine ⟨counts, fun draining some => ?_⟩
        have drained := drains draining some
        exact ⟨drained.clipAt, drained.note⟩
      · exact absurd loading state
    · rw [writes, tag]
      exact a.writes
    · rw [inFlight]
      exact a.inFlight
    · intro l x n c held load e loading none
      have ended := a.ended l (List.mem_finRange l) held x n c load e loading
      have counts := (clips x.clip c.unloaded ended (.inr ⟨none, nofun⟩)).1 (.inl nofun)
      rw [counts, ← none]
      rfl
    · intro x mem
      exact (a.queue x (queue ▸ mem)).2 (List.mem_finRange _)
    · intro x stands
      exact (a.copy x (copy ▸ stands)).2 (List.mem_finRange _)
    · intro k
      rw [← triggers]
      exact shed.trigger k
    · intro p
      have kept := shed.port p
      have aborted : v.clearSummaries.ports.get p = _ := a.port p
      rw [kept, aborted]
    · rw [frame]
    · rw [frame]
    · intro none
      rw [walk]
      exact a.walkKept fun l _ => none l
    · intro l handed
      rw [walk]
      exact a.walkEnded l (List.mem_finRange l) handed

end Sys2Proof.Machine
end
